-- ==== Sys2Proof/Word.lean ====
section
/-! DEFINITION. The word types of the ports and registers, and the value types of the spec (R19, R24, R27, R60, R230). -/

namespace Sys2Proof

/-- A host command word, or a host-visible register (R65, R27): 32 bits. -/
abbrev Word := BitVec 32
/-- A Timer value as it stands in a 16-bit register or port (R79, R90). -/
abbrev Timer := BitVec 16
/-- The 56-bit RTC payload (R76). -/
abbrev Payload := BitVec 56
/-- A protocol frame: `fr[i]` is bit `i` (R62). -/
abbrev Frame := BitVec 59
/-- The SampleWindow: the sample of age `k` is bit `k` (R11, R41). -/
abbrev Window := BitVec 200
/-- A correlation score as the score ring holds it, `SCORE_W` bits (R12). -/
abbrev Score := BitVec 8
/-- A count of minutes, `MIN_W` bits (R24, R25). -/
abbrev Minutes := BitVec 12

/-- A ternary symbol (R60). Code 3 has no constructor: it is never produced and never stored. -/
inductive Symbol where
  | low
  | high
  | minuteEnd
deriving DecidableEq, Repr

/-- A published pair: the Timer at the sample, and the sample (1 = active) (R94, R61). -/
structure Sample where
  stamp : Timer
  level : Bool
deriving DecidableEq, Repr

/-- A Date with the register widths of R31; the ranges of R19 are `Date.wf`. The weekday is its
ordinal, 1 = Monday (R78). -/
structure Date where
  day : BitVec 5
  month : BitVec 4
  year : BitVec 7
  weekday : BitVec 3
deriving DecidableEq, Repr

/-- A Time with the register widths of R31; the ranges of R19 are `Time.wf`. -/
structure Time where
  hour : BitVec 5
  minute : BitVec 6
  second : Option (BitVec 6)
deriving DecidableEq, Repr

/-- A Datetime: a Date and a Time (R19). -/
structure Datetime where
  date : Date
  time : Time
deriving DecidableEq, Repr

/-- PhaseOfDay (R24). -/
inductive Phase where
  | default (lastTriggerDay : Option (BitVec 5))
  | dawn (elapsedSinceDawn : Minutes)
  | sunRise (elapsedSinceSunrise : Minutes)
deriving DecidableEq, Repr

/-- The sixteen kinds of decoder error, in the order of their codes 1 to 16 (R230). -/
inductive ErrKind where
  | missedPolledValue
  | lastPeakTooClose
  | lastPeakTooFar
  | badBit
  | badStartOfTime
  | badStartOfMinute
  | summerTime
  | minuteParity
  | hourParity
  | dateParity
  | minuteRange
  | hourRange
  | dayRange
  | weekdayRange
  | monthRange
  | yearRange
deriving DecidableEq, Repr

/-- A decoder error: its kind and its 16-bit information word (R23, R230). -/
structure DecErr where
  kind : ErrKind
  info : BitVec 16
deriving DecidableEq, Repr

/-- The fifteen host-visible registers, in the order of the register map (R27). -/
inductive Reg where
  | curDate
  | curTime
  | syncDate
  | syncTime
  | phase
  | lastbit
  | quarters
  | lasterr
  | dawn
  | week
  | wknd
  | decstat
  | fbstat
  | smpstamp
  | peakstamp
deriving DecidableEq, Repr

end Sys2Proof
end

