-- ==== Sys2Proof/Config.lean ====
section
/-! DEFINITION. The implementation parameters of R7, and the free values of the model. -/

namespace Sys2Proof

/-- The parameters the source leaves symbolic (R7). Widths that are types of State (`N`, `TIMER_W`,
`SCORE_W`, `MIN_W`) stand in Word.lean at the decided value and are repeated here as numbers. -/
structure Params where
  f : Nat
  period : Nat
  h : Nat
  n : Nat
  pattern : Window
  scoreW : Nat
  margin : Nat
  bwOff : Nat
  bwLen : Nat
  peakMin : Nat
  peakMax : Nat
  fbCap : Nat
  frameLen : Nat
  timerW : Nat
  timerMax : Nat
  tickInc : Nat
  minW : Nat
  diffMin : Int
  diffMax : Int
deriving DecidableEq, Repr

/-- CORE interface 1: the decided values of R7. The pattern is the 200-bit word of R103
(DESIGN CHOICE of entry 5: the spec leaves the parameters open to a platform). -/
abbrev Config.core1 : Params where
  f := 50
  period := 20
  h := 4
  n := 200
  pattern := 0xFFFFFFFFFF003FFFFFFFFFC00FFFFFFFFFF003FFFFFFFFFC00#200
  scoreW := 8
  margin := 5
  bwOff := 1
  bwLen := 10
  peakMin := 900
  peakMax := 1100
  fbCap := 60
  frameLen := 59
  timerW := 16
  timerMax := 65520
  tickInc := 1
  minW := 12
  diffMin := -32768
  diffMax := 32767

/-- The frame buffer's content after a push onto a full ring: a FREE VALUE. R130 gives no rule
because R134 shows the case unreachable (entry 12; DESIGN CHOICE, safe). -/
opaque Config.pushOntoFullRing : List Symbol → Symbol → List Symbol

/-- The information word of a spacing error whose difference is negative: a FREE VALUE. It needs a
stamp above `TIMER_MAX`, which R90 says never occurs (entry 13; DESIGN CHOICE, safe). -/
opaque Config.negativeDeltaInfo : Int → BitVec 16

/-- The days before a month that is not 1 to 12: a FREE VALUE. R19 says no Date holds such a month
(entry 16; DESIGN CHOICE, safe). -/
opaque Config.daysBeforeNoMonth : Nat → Nat

/-- The information word of BadBit for a count that 16 bits cannot hold: a FREE VALUE. R230 gives the
word 16 bits, and R124 says no count above 10 occurs (entry 23; DESIGN CHOICE, safe). -/
opaque Config.wideBadBitInfo : Nat → BitVec 16

/-- What `rtc_rdata` carries beside a failed read on a program line: a FREE VALUE. R30 gives the port
a meaning for a successful read only (entry 22; DESIGN CHOICE, safe). -/
opaque Config.failedReadData : Payload

end Sys2Proof
end

