-- ==== Sys2Proof/Syntax.lean ====
section
/-! DEFINITION. The operations: one constructor for each row of spec/opcode_table.json. -/

namespace Sys2Proof

/-- The operations of the CORE and its HardwareClock. The first seven are the host commands (R66);
the next fifteen are the table's rows for RDREG with one defined register number (R69); the last
seventeen are the internal operations, which have no encoding (R66). An internal operation's
operands are the operands its rule names (entry 9). -/
inductive Instr where
  | nop
  | update
  | ack
  | setdawn (v : Bool) (min : Minutes)
  | setweek (v : Bool) (hour : BitVec 5) (minute : BitVec 6)
  | setwknd (v : Bool) (hour : BitVec 5) (minute : BitVec 6)
  | rdreg (reg : BitVec 8)
  | rdregCurDate
  | rdregCurTime
  | rdregSyncDate
  | rdregSyncTime
  | rdregPhase
  | rdregLastbit
  | rdregQuarters
  | rdregLasterr
  | rdregDawn
  | rdregWeek
  | rdregWknd
  | rdregDecstat
  | rdregFbstat
  | rdregSmpstamp
  | rdregPeakstamp
  | tick (pin : Bool)
  | tsub (a b : Timer)
  | latestSample
  | currentTimer
  | histShift (sample : Bool)
  | corrScore
  | phaseStep (score : Score)
  | bitClassify (stamp : Timer)
  | framePush (sym : Symbol)
  | frameExtract
  | protoDecode (fr : Frame)
  | decPoll (smp : Option Sample)
  | decResync (e : DecErr)
  | rtcWrite (dt : Datetime)
  | rtcRead
  | phaseEval
  | reset
deriving DecidableEq, Repr

end Sys2Proof
end

