-- ==== Sys2Proof/WellFormed.lean ====
section
/-! DEFINITION. The range checks on values (R19) and on the operands of an operation (R67, R70, R91). -/

namespace Sys2Proof

/-- The ranges of a Date (R19). The day is not checked against the month. -/
def Date.wf (d : Date) : Bool :=
  decide (1 ≤ d.day.toNat) && decide (1 ≤ d.month.toNat) && decide (d.month.toNat ≤ 12)
    && decide (d.year.toNat ≤ 99) && decide (1 ≤ d.weekday.toNat)

/-- The ranges of a Time (R19); a second is 0 to 59 when present. -/
def Time.wf (t : Time) : Bool :=
  decide (t.hour.toNat ≤ 23) && decide (t.minute.toNat ≤ 59)
    && match t.second with
      | none => true
      | some s => decide (s.toNat ≤ 59)

/-- The ranges of a Datetime (R19). -/
def Datetime.wf (dt : Datetime) : Bool := dt.date.wf && dt.time.wf

/-- A Timer value lies in `0..TIMER_MAX` (R90). -/
def Timer.wf (t : Timer) : Bool := decide (t.toNat ≤ Config.core1.timerMax)

/-- The operand of a SETWEEK or SETWKND can be constructed as a Time (R67, R70 (c)). -/
def sunriseOperandOk (v : Bool) (hour : BitVec 5) (minute : BitVec 6) : Bool :=
  !v || (decide (hour.toNat ≤ 23) && decide (minute.toNat ≤ 59))

/-- The register numbers of the map (R27, R70 (d)). -/
def registerDefined (r : BitVec 8) : Bool :=
  decide (r.toNat ≤ 0x0A) || (decide (0x10 ≤ r.toNat) && decide (r.toNat ≤ 0x13))

/-- The operands an operation's rule admits. -/
def Instr.wellFormed : Instr → Bool
  | .nop => true
  | .update => true
  | .ack => true
  | .setdawn _ _ => true
  | .setweek v hour minute => sunriseOperandOk v hour minute
  | .setwknd v hour minute => sunriseOperandOk v hour minute
  | .rdreg reg => registerDefined reg
  | .rdregCurDate => true
  | .rdregCurTime => true
  | .rdregSyncDate => true
  | .rdregSyncTime => true
  | .rdregPhase => true
  | .rdregLastbit => true
  | .rdregQuarters => true
  | .rdregLasterr => true
  | .rdregDawn => true
  | .rdregWeek => true
  | .rdregWknd => true
  | .rdregDecstat => true
  | .rdregFbstat => true
  | .rdregSmpstamp => true
  | .rdregPeakstamp => true
  | .tick _ => true
  | .tsub a b => Timer.wf a && Timer.wf b
  | .latestSample => true
  | .currentTimer => true
  | .histShift _ => true
  | .corrScore => true
  | .phaseStep _ => true
  | .bitClassify stamp => Timer.wf stamp
  | .framePush _ => true
  | .frameExtract => true
  | .protoDecode _ => true
  | .decPoll smp =>
    match smp with
    | none => true
    | some p => Timer.wf p.stamp
  | .decResync _ => true
  | .rtcWrite dt => dt.wf
  | .rtcRead => true
  | .phaseEval => true
  | .reset => true

end Sys2Proof
end

