-- ==== Sys2Proof/Decode.lean ====
section
/-! DEFINITION. The command decoder (R65, R66, R70), total on every 32-bit word and rejecting by name,
and after it the encoder. -/

namespace Sys2Proof

/-- Why a command word is no command (R70 (a), (b)). The operand checks R70 (c) and (d) belong to the
commands themselves (R206, R207, R208). -/
inductive DecodeError where
  /-- `OP` is not one of the seven opcodes (R70 (a)). -/
  | unknownOpcode
  /-- A bit the format shows as 0 is 1 (R70 (b)). -/
  | reservedBits
deriving DecidableEq, Repr

/-- `OP`, bits 31:24 (R65). -/
def opField (w : Word) : BitVec 8 := w.extractLsb' 24 8
/-- `V`, bit 16 of formats C1 and C2 (R65). -/
def vField (w : Word) : Bool := w.getLsbD 16
/-- `MIN`, bits 11:0 of format C1 (R65). -/
def minField (w : Word) : Minutes := w.extractLsb' 0 12
/-- `HOUR`, bits 12:8 of format C2 (R65). -/
def hourField (w : Word) : BitVec 5 := w.extractLsb' 8 5
/-- `MINUTE`, bits 5:0 of format C2 (R65). -/
def minuteField (w : Word) : BitVec 6 := w.extractLsb' 0 6
/-- `REG`, bits 7:0 of format C3 (R65). -/
def regField (w : Word) : BitVec 8 := w.extractLsb' 0 8

/-- The bits each format shows as 0 (R65): the mask of R66 without the opcode's byte. -/
def reservedC0 : Word := 0x00FFFFFF#32
def reservedC1 : Word := 0x00FEF000#32
def reservedC2 : Word := 0x00FEE0C0#32
def reservedC3 : Word := 0x00FFFF00#32

/-- `i`, unless a reserved bit of the format is 1 (R70 (b)). -/
def acceptIf (w reserved : Word) (i : Instr) : Except DecodeError Instr :=
  if w &&& reserved = 0#32 then .ok i else .error .reservedBits

/-- The register map: number and register (R27). -/
def registerMap : List (BitVec 8 × Reg) :=
  [(0x00#8, .curDate), (0x01#8, .curTime), (0x02#8, .syncDate), (0x03#8, .syncTime),
   (0x04#8, .phase), (0x05#8, .lastbit), (0x06#8, .quarters), (0x07#8, .lasterr),
   (0x08#8, .dawn), (0x09#8, .week), (0x0A#8, .wknd),
   (0x10#8, .decstat), (0x11#8, .fbstat), (0x12#8, .smpstamp), (0x13#8, .peakstamp)]

/-- The number of a register (R27). -/
def Reg.number : Reg → BitVec 8
  | .curDate => 0x00#8
  | .curTime => 0x01#8
  | .syncDate => 0x02#8
  | .syncTime => 0x03#8
  | .phase => 0x04#8
  | .lastbit => 0x05#8
  | .quarters => 0x06#8
  | .lasterr => 0x07#8
  | .dawn => 0x08#8
  | .week => 0x09#8
  | .wknd => 0x0A#8
  | .decstat => 0x10#8
  | .fbstat => 0x11#8
  | .smpstamp => 0x12#8
  | .peakstamp => 0x13#8

/-- The register of a number, if the map has one (R27). -/
def Reg.ofNumber (r : BitVec 8) : Option Reg := registerMap.lookup r

/-- The table's row for RDREG of one register. -/
def Reg.row : Reg → Instr
  | .curDate => .rdregCurDate
  | .curTime => .rdregCurTime
  | .syncDate => .rdregSyncDate
  | .syncTime => .rdregSyncTime
  | .phase => .rdregPhase
  | .lastbit => .rdregLastbit
  | .quarters => .rdregQuarters
  | .lasterr => .rdregLasterr
  | .dawn => .rdregDawn
  | .week => .rdregWeek
  | .wknd => .rdregWknd
  | .decstat => .rdregDecstat
  | .fbstat => .rdregFbstat
  | .smpstamp => .rdregSmpstamp
  | .peakstamp => .rdregPeakstamp

/-- RDREG of a number: the most specific row of the table that matches (entry 8). A number outside
the map stays with the general row, whose meaning refuses it (R70 (d), R208). -/
def rdregRow (r : BitVec 8) : Instr :=
  match Reg.ofNumber r with
  | some reg => reg.row
  | none => .rdreg r

/-- The command of a word (R66), or why there is none (R70 (a), (b)). -/
def decode (w : Word) : Except DecodeError Instr :=
  if opField w = 0x00#8 then acceptIf w reservedC0 .nop
  else if opField w = 0x01#8 then acceptIf w reservedC0 .update
  else if opField w = 0x02#8 then acceptIf w reservedC0 .ack
  else if opField w = 0x10#8 then acceptIf w reservedC1 (.setdawn (vField w) (minField w))
  else if opField w = 0x11#8 then
    acceptIf w reservedC2 (.setweek (vField w) (hourField w) (minuteField w))
  else if opField w = 0x12#8 then
    acceptIf w reservedC2 (.setwknd (vField w) (hourField w) (minuteField w))
  else if opField w = 0x20#8 then acceptIf w reservedC3 (rdregRow (regField w))
  else .error .unknownOpcode

/-- The instruction the decoder reads from an instruction whose bits are `w`, `nbits` of them given
and every higher bit 0. A command is one 32-bit word, so no byte order enters (R44, R65). -/
def decodeTableWord (nbits w : Nat) : Option Instr :=
  match decode (BitVec.ofNat 32 (w % 2 ^ nbits)) with
  | .ok i => some i
  | .error _ => none

/-! ### The encoder -/

/-- Format C0 (R65). -/
def wordC0 (op : BitVec 8) : Word := op ++ 0#24
/-- Format C1 (R65). -/
def wordC1 (op : BitVec 8) (v : Bool) (min : Minutes) : Word :=
  op ++ 0#7 ++ BitVec.ofBool v ++ 0#4 ++ min
/-- Format C2 (R65). -/
def wordC2 (op : BitVec 8) (v : Bool) (hour : BitVec 5) (minute : BitVec 6) : Word :=
  op ++ 0#7 ++ BitVec.ofBool v ++ 0#3 ++ hour ++ 0#2 ++ minute
/-- Format C3 (R65). -/
def wordC3 (op reg : BitVec 8) : Word := op ++ 0#16 ++ reg

/-- The command word of an operation; an internal operation has none (R66). -/
def encode : Instr → Option Word
  | .nop => some (wordC0 0x00#8)
  | .update => some (wordC0 0x01#8)
  | .ack => some (wordC0 0x02#8)
  | .setdawn v min => some (wordC1 0x10#8 v min)
  | .setweek v hour minute => some (wordC2 0x11#8 v hour minute)
  | .setwknd v hour minute => some (wordC2 0x12#8 v hour minute)
  | .rdreg reg => some (wordC3 0x20#8 reg)
  | .rdregCurDate => some (wordC3 0x20#8 Reg.curDate.number)
  | .rdregCurTime => some (wordC3 0x20#8 Reg.curTime.number)
  | .rdregSyncDate => some (wordC3 0x20#8 Reg.syncDate.number)
  | .rdregSyncTime => some (wordC3 0x20#8 Reg.syncTime.number)
  | .rdregPhase => some (wordC3 0x20#8 Reg.phase.number)
  | .rdregLastbit => some (wordC3 0x20#8 Reg.lastbit.number)
  | .rdregQuarters => some (wordC3 0x20#8 Reg.quarters.number)
  | .rdregLasterr => some (wordC3 0x20#8 Reg.lasterr.number)
  | .rdregDawn => some (wordC3 0x20#8 Reg.dawn.number)
  | .rdregWeek => some (wordC3 0x20#8 Reg.week.number)
  | .rdregWknd => some (wordC3 0x20#8 Reg.wknd.number)
  | .rdregDecstat => some (wordC3 0x20#8 Reg.decstat.number)
  | .rdregFbstat => some (wordC3 0x20#8 Reg.fbstat.number)
  | .rdregSmpstamp => some (wordC3 0x20#8 Reg.smpstamp.number)
  | .rdregPeakstamp => some (wordC3 0x20#8 Reg.peakstamp.number)
  | .tick _ => none
  | .tsub _ _ => none
  | .latestSample => none
  | .currentTimer => none
  | .histShift _ => none
  | .corrScore => none
  | .phaseStep _ => none
  | .bitClassify _ => none
  | .framePush _ => none
  | .frameExtract => none
  | .protoDecode _ => none
  | .decPoll _ => none
  | .decResync _ => none
  | .rtcWrite _ => none
  | .rtcRead => none
  | .phaseEval => none
  | .reset => none

/-- The row the decoder names for an operation: RDREG of a defined number is its own row (entry 8). -/
def Instr.canonical : Instr → Instr
  | .rdreg reg => rdregRow reg
  | i => i

end Sys2Proof
end

