-- ==== Sys2Proof/Machine/State.lean ====
section
/-! DEFINITION. The state of the machine as plain data (R10 to R31), its reset value, and the reasons a step can stop. -/

namespace Sys2Proof.Machine

/-- Why a step stops with a fault: never. R246: "nothing in this core is fatal to the process", and
the transition function is total, so this type has no constructor and nobody raises one (safe). -/
inductive Fault
deriving DecidableEq, Repr

/-- Why a step is refused. (The CORE's own refusal of a command word, R70, is a next state.) -/
inductive Refusal where
  /-- Raised only by an arm of `exec` whose operation has no meaning yet; no arm is left (safe). -/
  | notModelled (mnemonic : String)
deriving DecidableEq, Repr

/-- The Decoder sub-state (R10): reset together by any decoder error. -/
structure DecState where
  /-- `W` (R11). -/
  w : Window
  /-- `wcount` (R11). -/
  wcount : BitVec 8
  /-- `S`, oldest score first (R12). -/
  s : List Score
  /-- `prev_height` (R14). -/
  prevHeight : BitVec 8
  /-- `latch` (R14). -/
  latch : Bool
  /-- `last_peak` (R15). -/
  lastPeak : Option Timer
  /-- `last_smp` (R15). -/
  lastSmp : Option Timer
  /-- `FB`, front first (R16). -/
  fb : List Symbol
deriving DecidableEq, Repr

/-- `sfill` (R12). -/
def DecState.sfill (d : DecState) : Nat := d.s.length
/-- `fb_len` (R16). -/
def DecState.fbLen (d : DecState) : Nat := d.fb.length

/-- The initial (empty) Decoder sub-state: its reset value and its value after a resync (R31). -/
def DecState.empty : DecState where
  w := 0#200
  wcount := 0#8
  s := []
  prevHeight := 0#8
  latch := false
  lastPeak := none
  lastSmp := none
  fb := []

/-- The Clock aggregate (R10): never touched by a resync, but for `lasterr`. -/
structure ClockAgg where
  /-- `datetime` (R20). -/
  datetime : Option Datetime
  /-- `last_radio_sync` (R21). -/
  lastRadioSync : Option Datetime
  /-- `last_bit` (R22). -/
  lastBit : Option Symbol
  /-- `lasterr` (R23). -/
  lasterr : Option DecErr
  /-- `phase` (R24). -/
  phase : Phase
  /-- `dawn_duration` (R25). -/
  dawnDuration : Option Minutes
  /-- `week_sunrise` (R26). -/
  weekSunrise : Option Time
  /-- `weekend_sunrise` (R26). -/
  weekendSunrise : Option Time
deriving DecidableEq, Repr

/-- The Clock aggregate after reset (R31). -/
def ClockAgg.reset : ClockAgg where
  datetime := none
  lastRadioSync := none
  lastBit := none
  lasterr := none
  phase := .default none
  dawnDuration := none
  weekSunrise := none
  weekendSunrise := none

/-- The HardwareClock (R29). -/
structure HwClock where
  /-- `timer` (R90). -/
  timer : Timer
  /-- `vote` (R93). -/
  vote : Int
  /-- `pub`, read by the CORE as `smp_valid`, `smp_stamp`, `smp_level` (R94). -/
  pub : Option Sample
deriving DecidableEq, Repr

/-- The HardwareClock after its own reset (R261). -/
def HwClock.reset : HwClock where
  timer := 0#16
  vote := 0
  pub := none

/-- The RTC's input ports (R30); their values are the environment's (R242). -/
structure RtcPort where
  /-- `rtc_wack`. -/
  wack : Bool
  /-- `rtc_rok`. -/
  rok : Bool
  /-- `rtc_rdata`. -/
  rdata : Payload
deriving DecidableEq, Repr

/-- The output ports (R30). -/
structure Outputs where
  /-- `rsp_err`. -/
  rspErr : Bool
  /-- `rsp_data`. -/
  rspData : Word
  /-- `rtc_wreq`. -/
  rtcWreq : Bool
  /-- `rtc_wdata`. -/
  rtcWdata : Payload
  /-- `rtc_wsec_valid`. -/
  rtcWsecValid : Bool
  /-- `rtc_rreq`. -/
  rtcRreq : Bool
deriving DecidableEq, Repr

/-- The output ports out of reset: all 0 (R31). -/
def Outputs.idle : Outputs where
  rspErr := false
  rspData := 0#32
  rtcWreq := false
  rtcWdata := 0#56
  rtcWsecValid := false
  rtcRreq := false

/-- How the Decoder's part of an UPDATE ended (R170). -/
inductive PollEnd where
  | nothing
  | synced (dt : Datetime)
  | error (e : DecErr)
deriving DecidableEq, Repr

/-- What happened in the Decoder's part of an UPDATE (R170). -/
structure Poll where
  accepted : Bool
  score : Option Nat
  peak : Bool
  symbol : Option Symbol
  count : Option Nat
  frame : Option Frame
  aborted : Bool
  outcome : PollEnd
deriving DecidableEq, Repr

/-- The record of a poll that did nothing (R171). -/
def Poll.none : Poll where
  accepted := false
  score := Option.none
  peak := false
  symbol := Option.none
  count := Option.none
  frame := Option.none
  aborted := false
  outcome := .nothing

/-- What a stand-alone internal operation hands on. The spec stores none of it (R28): this is the
model's own field, read by nothing (entry 9). -/
inductive StageOut where
  | none
  /-- `tsub`: the difference (R91). -/
  | delta (d : Int)
  /-- `latest_sample`: the published pair (R94). -/
  | sample (p : Option Sample)
  /-- `current_timer`: the Timer (R95). -/
  | timer (t : Timer)
  /-- `CORR.SCORE`: the score, none while the window is not full (R101, R102). -/
  | score (n : Option Nat)
  /-- `PHASE.STEP`: the peak (R113). -/
  | peak (p : Bool)
  /-- `BIT.CLASSIFY`: the symbol (R122). -/
  | symbol (sym : Symbol)
  /-- `FRAME.EXTRACT`: the frame, and whether the extraction was aborted (R132, R133). -/
  | frame (fr : Option Frame) (aborted : Bool)
  /-- `PROTO.DECODE`: the Datetime (R153). -/
  | decoded (dt : Datetime)
  /-- A decoder error, the result of `DEC.RESYNC` (R176). -/
  | raised (e : DecErr)
  /-- `DEC.POLL`: the record (R170). -/
  | poll (r : Poll)
  /-- `RTC.WRITE`: the RTC's acknowledgement (R193). -/
  | ack (ok : Bool)
deriving DecidableEq, Repr

/-- One action of one agent (R5). The list of the actions to come is `State.inbox` (entry 1). -/
inductive Event where
  /-- The host issues a command word. -/
  | host (cmd : Word)
  /-- The tick agent's step with the level of the input pin. -/
  | tick (pin : Bool)
  /-- `rst` is asserted (R260). -/
  | rst
  /-- The HardwareClock is reset (R261). -/
  | rstClock
  /-- The RTC's input ports take new values (R242). -/
  | rtc (answer : RtcPort)
  /-- A sampling source shows this pair (R244): the environment drives `smp_*` directly. -/
  | smp (p : Option Sample)
deriving DecidableEq, Repr

/-- The state of the CORE (`dec`, `clk`, `out`), of the HardwareClock (`hw`), of the RTC's input ports
(`rtc`), and the model's own fields (`inbox`, `stage`). -/
structure State where
  dec : DecState
  clk : ClockAgg
  hw : HwClock
  rtc : RtcPort
  out : Outputs
  inbox : List Event
  stage : StageOut
deriving DecidableEq, Repr

/-- The machine right after reset (R31, R260, R261). The RTC's input ports, `inbox` and `stage` have
no reset value in the spec: DESIGN CHOICE (entries 1, 3, 9). -/
def State.reset : State where
  dec := DecState.empty
  clk := ClockAgg.reset
  hw := HwClock.reset
  rtc := { wack := false, rok := false, rdata := 0#56 }
  out := Outputs.idle
  inbox := []
  stage := .none

end Sys2Proof.Machine
end

