-- ==== Sys2Proof/Machine/Operands.lean ====
section
/-! DEFINITION. Operand forms and data encodings: symbol and error codes (R60, R230), the optional operands of the
SET commands (R67), weighted fields and parity (R63, R64), the RTC payload (R76, R195, R196), minute counts. -/

namespace Sys2Proof

/-- The 2-bit code of a symbol (R60). -/
def Symbol.code : Symbol → BitVec 2
  | .low => 0#2
  | .high => 1#2
  | .minuteEnd => 2#2

/-- The 5-bit code of a decoder error (R75, R230). -/
def ErrKind.code : ErrKind → BitVec 5
  | .missedPolledValue => 1#5
  | .lastPeakTooClose => 2#5
  | .lastPeakTooFar => 3#5
  | .badBit => 4#5
  | .badStartOfTime => 5#5
  | .badStartOfMinute => 6#5
  | .summerTime => 7#5
  | .minuteParity => 8#5
  | .hourParity => 9#5
  | .dateParity => 10#5
  | .minuteRange => 11#5
  | .hourRange => 12#5
  | .dayRange => 13#5
  | .weekdayRange => 14#5
  | .monthRange => 15#5
  | .yearRange => 16#5

/-- Minutes since midnight (R200). -/
def Time.minuteOfDay (t : Time) : Nat := t.hour.toNat * 60 + t.minute.toNat

end Sys2Proof

namespace Sys2Proof.Machine

/-! ### Operands of the SET commands -/

/-- The optional minutes of format C1: `V = 0` is none, whatever MIN holds (R65, R67). -/
def minutesOperand (v : Bool) (min : Minutes) : Option Minutes := if v then some min else none

/-- The optional Time of format C2, its second absent (R67, R206). -/
def timeOperand (v : Bool) (hour : BitVec 5) (minute : BitVec 6) : Option Time :=
  if v then some { hour := hour, minute := minute, second := none } else none

/-- The Time of format C2 cannot be constructed: `V = 1` and `HOUR > 23` or `MINUTE > 59`
(R70 (c), R206). -/
def timeOperandBad (v : Bool) (hour : BitVec 5) (minute : BitVec 6) : Bool :=
  v && (decide (23 < hour.toNat) || decide (59 < minute.toNat))

/-! ### Frame fields -/

/-- `WEIGHTS` (R63). -/
def weights : List Nat := [1, 2, 4, 8, 10, 20, 40, 80]

/-- `value(lo, hi)`: the weighted sum of frame bits `lo` to `hi` (R63). -/
def fieldValue (fr : Frame) (lo hi : Nat) : Nat :=
  ((weights.take (hi - lo + 1)).zipIdx.map fun (wt, i) => wt * (fr.getLsbD (lo + i)).toNat).sum

/-- The exclusive or of frame bits `a` to `b`: false when their parity is even (R64). -/
def oddParity (fr : Frame) (a b : Nat) : Bool :=
  (List.range (b - a + 1)).foldl (fun p i => p ^^ fr.getLsbD (a + i)) false

/-! ### RTC payload -/

/-- `bcd(v)`: ordinary packed BCD (R76). -/
def bcd (v : Nat) : BitVec 8 := BitVec.ofNat 8 (v / 10 * 16 + v % 10)

/-- `unbcd(b)`, defined when both nibbles are at most 9 (R76). -/
def unbcd (b : BitVec 8) : Nat := b.toNat / 16 * 10 + b.toNat % 16

/-- Both nibbles are at most 9 (R195). -/
def bcdOk (b : BitVec 8) : Bool := decide (b.toNat / 16 ≤ 9) && decide (b.toNat % 16 ≤ 9)

/-- The second's byte: `0x00` when the second is absent (R76, R196); for a write of a Datetime with a
second, see entry 21. -/
def secondByte : Option (BitVec 6) → BitVec 8
  | none => 0x00#8
  | some s => bcd s.toNat

/-- `pack(dt)`: byte 0 is the second, byte 6 the year (R76, R196). -/
def packDatetime (dt : Datetime) : Payload :=
  bcd dt.date.year.toNat ++ bcd dt.date.month.toNat ++ bcd dt.date.day.toNat
    ++ (0#5 ++ dt.date.weekday : BitVec 8)
    ++ bcd dt.time.hour.toNat ++ bcd dt.time.minute.toNat ++ secondByte dt.time.second

/-- Byte `i` of a payload (R76). -/
def payloadByte (p : Payload) (i : Nat) : BitVec 8 := p.extractLsb' (8 * i) 8

/-- The range test on the seven numbers of a payload (R195). -/
def payloadInRange (second minute hour weekday day month : Nat) : Bool :=
  decide (second ≤ 59) && decide (minute ≤ 59) && decide (hour ≤ 23)
    && decide (1 ≤ weekday) && decide (weekday ≤ 7)
    && decide (1 ≤ day) && decide (day ≤ 31) && decide (1 ≤ month) && decide (month ≤ 12)

/-- `unpack(p)`: the Datetime of a read payload, none when it cannot be one (R195). -/
def unpackDatetime (p : Payload) : Option Datetime :=
  if bcdOk (payloadByte p 0) && bcdOk (payloadByte p 1) && bcdOk (payloadByte p 2)
      && bcdOk (payloadByte p 4) && bcdOk (payloadByte p 5) && bcdOk (payloadByte p 6) then
    let second := unbcd (payloadByte p 0)
    let minute := unbcd (payloadByte p 1)
    let hour := unbcd (payloadByte p 2)
    let weekday := (payloadByte p 3).toNat
    let day := unbcd (payloadByte p 4)
    let month := unbcd (payloadByte p 5)
    let year := unbcd (payloadByte p 6)
    if payloadInRange second minute hour weekday day month then
      some
        { date := { day := BitVec.ofNat 5 day, month := BitVec.ofNat 4 month,
                    year := BitVec.ofNat 7 year, weekday := BitVec.ofNat 3 weekday }
          time := { hour := BitVec.ofNat 5 hour, minute := BitVec.ofNat 6 minute,
                    second := some (BitVec.ofNat 6 second) } }
    else none
  else none

end Sys2Proof.Machine
end

