-- ==== Sys2Proof/Machine/Flags.lean ====
section
/-! DEFINITION. The event flags of an UPDATE and the status word that holds them (R68, R212). -/

namespace Sys2Proof.Machine

/-- The twelve event flags of an UPDATE (R68). They are outputs, not state (R18). -/
structure UpdateFlags where
  smpAcc : Bool
  score : Bool
  peak : Bool
  sym : Bool
  frame : Bool
  sync : Bool
  derr : Bool
  rtcw : Bool
  rtcwOk : Bool
  timeOk : Bool
  phchg : Bool
  fabort : Bool
deriving DecidableEq, Repr

/-- The outcome is Synced (R212, bit 5). -/
def PollEnd.isSynced : PollEnd → Bool
  | .nothing => false
  | .synced _ => true
  | .error _ => false

/-- The outcome is Error (R212, bit 6). -/
def PollEnd.isError : PollEnd → Bool
  | .nothing => false
  | .synced _ => false
  | .error _ => true

/-- The flags of an UPDATE from the Decoder's record, the RTC's acknowledgement, and the state after
the read and before and after the phase evaluation (R212). -/
def updateFlags (r : Poll) (wack : Bool) (datetime : Option Datetime) (before after : Phase) :
    UpdateFlags where
  smpAcc := r.accepted
  score := r.score.isSome
  peak := r.peak
  sym := r.symbol.isSome
  frame := r.frame.isSome
  sync := r.outcome.isSynced
  derr := r.outcome.isError
  rtcw := r.outcome.isSynced
  rtcwOk := r.outcome.isSynced && wack
  timeOk := datetime.isSome
  phchg := decide (after ≠ before)
  fabort := r.aborted

/-- The status word: SMP_ACC in bit 0, FABORT in bit 11, zeros above (R68). -/
def statusWord (f : UpdateFlags) : Word :=
  0#20 ++ BitVec.ofBool f.fabort ++ BitVec.ofBool f.phchg ++ BitVec.ofBool f.timeOk
    ++ BitVec.ofBool f.rtcwOk ++ BitVec.ofBool f.rtcw ++ BitVec.ofBool f.derr
    ++ BitVec.ofBool f.sync ++ BitVec.ofBool f.frame ++ BitVec.ofBool f.sym
    ++ BitVec.ofBool f.peak ++ BitVec.ofBool f.score ++ BitVec.ofBool f.smpAcc

end Sys2Proof.Machine
end

