-- ==== Sys2Proof/Machine/Ops.lean ====
section
/-! DEFINITION. The operations every family shares: the response to a command (R68), refusal (R70, R234), and the
resync, which is what raising a decoder error does (R176, R236). -/

namespace Sys2Proof.Machine

/-- The response of a command that is not refused: the data word, `rsp_err = 0`, no RTC request
(R68, R193). -/
def State.respond (s : State) (data : Word) : State :=
  { s with out := { Outputs.idle with rspData := data } }

/-- A refused command: `rsp_err = 1`, `rsp_data = 0`, no state element changes, no RTC request is
issued (R70, R234). -/
def State.refuse (s : State) : State :=
  { s with out := { Outputs.idle with rspErr := true } }

/-- `DEC.RESYNC`, the effect of `raise E(info)`: every element of the Decoder sub-state takes its
reset value and `lasterr` records the error; nothing else changes (R176, R236). There is no handler
to enter and nothing to return from (R238). -/
def State.resync (s : State) (e : DecErr) : State :=
  { s with dec := DecState.empty, clk := { s.clk with lasterr := some e } }

/-- `raise E(info)` in an internal operation run by itself: the resync, and the error handed on
(R8, R176; entry 10). -/
def State.raise (s : State) (e : DecErr) : State :=
  { s.resync e with stage := .raised e }

/-- What an internal operation run by itself hands on (entry 9). -/
def State.handOn (s : State) (o : StageOut) : State := { s with stage := o }

/-- The Decoder sub-state as an operation leaves it. -/
def State.setDec (s : State) (d : DecState) : State := { s with dec := d }

/-- The Clock aggregate as an operation leaves it. -/
def State.setClk (s : State) (c : ClockAgg) : State := { s with clk := c }

end Sys2Proof.Machine
end

