-- ==== Sys2Proof/Machine/Registers.lean ====
section
/-! DEFINITION. The host-visible registers: RegRead (R69, R71 to R74), the quarters accessor (R209, R210), RDREG (R208). -/

namespace Sys2Proof.Machine

/-! ### Day numbers and quarters -/

/-- `CUM` (R210). -/
def daysBefore : List Nat := [0, 31, 59, 90, 120, 151, 181, 212, 243, 273, 304, 334]

/-- `CUM[m - 1]`; a month outside 1..12 is in no Date (R19), and there it is a free value (entry 16). -/
def daysBeforeMonth (m : Nat) : Nat :=
  match m with
  | 0 => Config.daysBeforeNoMonth 0
  | k + 1 => daysBefore.getD k (Config.daysBeforeNoMonth m)

/-- `dayno(y, m, d)`: days from 1 January of year 00 (R210). -/
def dayNumber (y m d : Nat) : Nat :=
  365 * y + (y + 3) / 4 + daysBeforeMonth m + (if 2 < m ∧ y % 4 = 0 then 1 else 0) + (d - 1)

/-- `dayno` of a Date (R210). -/
def dayOfDate (d : Date) : Nat := dayNumber d.year.toNat d.month.toNat d.day.toNat

/-- The minutes from `b` to `a`; seconds are ignored (R209). -/
def minuteDifference (a b : Datetime) : Int :=
  ((dayOfDate a.date : Int) - dayOfDate b.date) * 1440
    + a.time.minuteOfDay - b.time.minuteOfDay

/-- The quarters accessor: none when it yields nothing (R209). -/
def quarters (datetime lastSync : Option Datetime) : Option Nat :=
  match datetime, lastSync with
  | some a, some b =>
    let diff := minuteDifference a b
    if diff < Config.core1.diffMin ∨ diff > Config.core1.diffMax then none
    else some (if diff < 0 then 0 else diff.toNat / 15)
  | some _, none => none
  | none, some _ => none
  | none, none => none

/-! ### Register words -/

/-- CUR_DATE and SYNC_DATE (R71). -/
def dateWord : Option Datetime → Word
  | none => 0#32
  | some dt =>
    1#1 ++ 0#4 ++ dt.date.weekday ++ 0#1 ++ dt.date.year ++ 0#4 ++ dt.date.month ++ 0#3 ++ dt.date.day

/-- CUR_TIME and SYNC_TIME (R71). -/
def timeWord : Option Datetime → Word
  | none => 0#32
  | some dt =>
    1#1 ++ 0#7 ++ BitVec.ofBool dt.time.second.isSome ++ 0#1 ++ dt.time.second.getD 0#6
      ++ 0#3 ++ dt.time.hour ++ 0#2 ++ dt.time.minute

/-- PHASE (R72). -/
def phaseWord : Phase → Word
  | .default none => 0#32
  | .default (some d) => 0#4 ++ 0#12 ++ 0#3 ++ d ++ 1#1 ++ 0#5 ++ 0#2
  | .dawn e => 0#4 ++ e ++ 0#3 ++ 0#5 ++ 0#1 ++ 0#5 ++ 1#2
  | .sunRise e => 0#4 ++ e ++ 0#3 ++ 0#5 ++ 0#1 ++ 0#5 ++ 2#2

/-- LASTBIT (R73). -/
def lastbitWord : Option Symbol → Word
  | none => 0#32
  | some sym => 0#29 ++ 1#1 ++ sym.code

/-- QUARTERS (R73, R209). -/
def quartersWord : Option Nat → Word
  | none => 0#32
  | some q => 1#1 ++ 0#19 ++ BitVec.ofNat 12 q

/-- LASTERR (R73). -/
def lasterrWord : Option DecErr → Word
  | none => 0#32
  | some e => 1#1 ++ 0#2 ++ e.kind.code ++ 0#8 ++ e.info

/-- DECSTAT (R73). -/
def decstatWord (d : DecState) : Word :=
  d.prevHeight ++ 0#7 ++ BitVec.ofBool d.latch ++ 0#2 ++ BitVec.ofNat 6 d.sfill ++ d.wcount

/-- FBSTAT (R73). -/
def fbstatWord (d : DecState) : Word := 0#26 ++ BitVec.ofNat 6 d.fbLen

/-- SMPSTAMP and PEAKSTAMP (R73). -/
def stampWord : Option Timer → Word
  | none => 0#32
  | some t => 0#15 ++ 1#1 ++ t

/-- DAWN (R74). -/
def dawnWord : Option Minutes → Word
  | none => 0#32
  | some m => 0#15 ++ 1#1 ++ 0#4 ++ m

/-- WEEK and WKND (R74). -/
def sunriseWord : Option Time → Word
  | none => 0#32
  | some t => 0#15 ++ 1#1 ++ 0#3 ++ t.hour ++ 0#2 ++ t.minute

/-- `RegRead(r)` (R69). -/
def State.regRead (s : State) : Reg → Word
  | .curDate => dateWord s.clk.datetime
  | .curTime => timeWord s.clk.datetime
  | .syncDate => dateWord s.clk.lastRadioSync
  | .syncTime => timeWord s.clk.lastRadioSync
  | .phase => phaseWord s.clk.phase
  | .lastbit => lastbitWord s.clk.lastBit
  | .quarters => quartersWord (quarters s.clk.datetime s.clk.lastRadioSync)
  | .lasterr => lasterrWord s.clk.lasterr
  | .dawn => dawnWord s.clk.dawnDuration
  | .week => sunriseWord s.clk.weekSunrise
  | .wknd => sunriseWord s.clk.weekendSunrise
  | .decstat => decstatWord s.dec
  | .fbstat => fbstatWord s.dec
  | .smpstamp => stampWord s.dec.lastSmp
  | .peakstamp => stampWord s.dec.lastPeak

/-! ### RDREG -/

/-- RDREG (R208): a number outside the map is refused (R70 (d)). -/
def execRdreg (reg : BitVec 8) (s : State) : Host.Outcome State Fault Refusal :=
  match Reg.ofNumber reg with
  | some r => .next (s.respond (s.regRead r))
  | none => .next s.refuse

/-- RDREG CUR_DATE (R208, R71). -/
def execRdregCurDate (s : State) : Host.Outcome State Fault Refusal :=
  .next (s.respond (s.regRead .curDate))

/-- RDREG CUR_TIME (R208, R71). -/
def execRdregCurTime (s : State) : Host.Outcome State Fault Refusal :=
  .next (s.respond (s.regRead .curTime))

/-- RDREG SYNC_DATE (R208, R71). -/
def execRdregSyncDate (s : State) : Host.Outcome State Fault Refusal :=
  .next (s.respond (s.regRead .syncDate))

/-- RDREG SYNC_TIME (R208, R71). -/
def execRdregSyncTime (s : State) : Host.Outcome State Fault Refusal :=
  .next (s.respond (s.regRead .syncTime))

/-- RDREG PHASE (R208, R72). -/
def execRdregPhase (s : State) : Host.Outcome State Fault Refusal :=
  .next (s.respond (s.regRead .phase))

/-- RDREG LASTBIT (R208, R73). -/
def execRdregLastbit (s : State) : Host.Outcome State Fault Refusal :=
  .next (s.respond (s.regRead .lastbit))

/-- RDREG QUARTERS (R208, R209). -/
def execRdregQuarters (s : State) : Host.Outcome State Fault Refusal :=
  .next (s.respond (s.regRead .quarters))

/-- RDREG LASTERR (R208, R73). -/
def execRdregLasterr (s : State) : Host.Outcome State Fault Refusal :=
  .next (s.respond (s.regRead .lasterr))

/-- RDREG DAWN (R208, R74). -/
def execRdregDawn (s : State) : Host.Outcome State Fault Refusal :=
  .next (s.respond (s.regRead .dawn))

/-- RDREG WEEK (R208, R74). -/
def execRdregWeek (s : State) : Host.Outcome State Fault Refusal :=
  .next (s.respond (s.regRead .week))

/-- RDREG WKND (R208, R74). -/
def execRdregWknd (s : State) : Host.Outcome State Fault Refusal :=
  .next (s.respond (s.regRead .wknd))

/-- RDREG DECSTAT (R208, R73). -/
def execRdregDecstat (s : State) : Host.Outcome State Fault Refusal :=
  .next (s.respond (s.regRead .decstat))

/-- RDREG FBSTAT (R208, R73). -/
def execRdregFbstat (s : State) : Host.Outcome State Fault Refusal :=
  .next (s.respond (s.regRead .fbstat))

/-- RDREG SMPSTAMP (R208, R73). -/
def execRdregSmpstamp (s : State) : Host.Outcome State Fault Refusal :=
  .next (s.respond (s.regRead .smpstamp))

/-- RDREG PEAKSTAMP (R208, R73). -/
def execRdregPeakstamp (s : State) : Host.Outcome State Fault Refusal :=
  .next (s.respond (s.regRead .peakstamp))

end Sys2Proof.Machine
end

