-- ==== Sys2Proof/Machine/HardwareClock.lean ====
section
/-! DEFINITION. The Timer and the sampling source: TICK, tsub, latest_sample, current_timer (R90 to R97). -/

namespace Sys2Proof.Machine

/-- `tsub(a, b)` (R91), computed in Int as R8 says. Outside the operands R91 names (a value above
`TIMER_MAX`) the same expression stands and may be negative (entry 14). -/
def timerSub (a b : Timer) : Int :=
  if b.toNat ≤ a.toNat then (a.toNat : Int) - b.toNat
  else (a.toNat : Int) + Config.core1.timerMax - b.toNat

/-- The Timer after a tick (R92), in the form R92 gives for any `TICK_INC` (entry 15). -/
def timerNext (t : Timer) : Timer :=
  let t' := t.toNat + Config.core1.tickInc
  BitVec.ofNat 16 (if t' > Config.core1.timerMax then t' - Config.core1.timerMax else t')

/-- `TICK`: the Timer advances, then the vote accumulates, and at a multiple of `PERIOD` the vote's
sign is published and the vote cleared; a tie publishes 0 (R92, R93). -/
def HwClock.tick (h : HwClock) (pin : Bool) : HwClock :=
  let timer := timerNext h.timer
  let vote := h.vote + (if pin then 1 else -1)
  if timer.toNat % Config.core1.period = 0 then
    { timer := timer, vote := 0, pub := some { stamp := timer, level := decide (0 < vote) } }
  else
    { timer := timer, vote := vote, pub := h.pub }

/-- TICK (R92, R93): writes the HardwareClock only. -/
def execTick (pin : Bool) (s : State) : Host.Outcome State Fault Refusal :=
  .next { s with hw := s.hw.tick pin }

/-- tsub (R91): a pure function; its difference is handed on. -/
def execTsub (a b : Timer) (s : State) : Host.Outcome State Fault Refusal :=
  .next (s.handOn (.delta (timerSub a b)))

/-- latest_sample (R94): the published pair; reading has no side effect on it. -/
def execLatestSample (s : State) : Host.Outcome State Fault Refusal :=
  .next (s.handOn (.sample s.hw.pub))

/-- current_timer (R95): the Timer, as the port `timer_now`. -/
def execCurrentTimer (s : State) : Host.Outcome State Fault Refusal :=
  .next (s.handOn (.timer s.hw.timer))

end Sys2Proof.Machine
end

