-- ==== Sys2Proof/Machine/BitClassifier.lean ====
section
/-! DEFINITION. The BitClassifier: BIT.CLASSIFY (R120 to R124). -/

namespace Sys2Proof.Machine

/-- The information word of a difference (R230): a difference of 0 or more fits 16 bits; a negative
one is possible only with a stamp above `TIMER_MAX`, and its word is a free value (entry 13). -/
def deltaInfo (d : Int) : BitVec 16 :=
  if d < 0 then Config.negativeDeltaInfo d else BitVec.ofNat 16 d.toNat

/-- BIT.CLASSIFY, part 1: the spacing to the previous peak lies in `[900, 1100]` ms (R120). -/
def spacingError (lastPeak : Option Timer) (stamp : Timer) : Option DecErr :=
  match lastPeak with
  | none => none
  | some p =>
    if timerSub stamp p < Config.core1.peakMin then
      some { kind := .lastPeakTooClose, info := deltaInfo (timerSub stamp p) }
    else if timerSub stamp p > Config.core1.peakMax then
      some { kind := .lastPeakTooFar, info := deltaInfo (timerSub stamp p) }
    else none

/-- BIT.CLASSIFY, part 3: the active samples of ages `BW_OFF` to `BW_OFF + BW_LEN - 1` (R121). -/
def activeCount (w : Window) : Nat :=
  (List.range Config.core1.bwLen).countP fun k => w.getLsbD (Config.core1.bwOff + k)

/-- The information word of BadBit: the count (R122, R230). A count that 16 bits cannot hold has a free
value there, since the spec names no narrowing: DESIGN CHOICE (entry 23). -/
def badBitInfo (c : Nat) : BitVec 16 :=
  if c < 65536 then BitVec.ofNat 16 c else Config.wideBadBitInfo c

/-- BIT.CLASSIFY, part 4: the symbol of a count, on every natural number (R122, R124; entry 23 for the
information word of a count above 65535). -/
def classify (c : Nat) : Except DecErr Symbol :=
  if c ≤ 2 then .ok .minuteEnd
  else if c ≤ 6 then .ok .low
  else if c ≤ 10 then .ok .high
  else .error { kind := .badBit, info := badBitInfo c }

/-- BIT.CLASSIFY: spacing (R120), the peak remembered (R123), count (R121), symbol (R122). -/
def DecState.bitClassify (d : DecState) (stamp : Timer) : Except DecErr (Symbol × DecState) :=
  match spacingError d.lastPeak stamp with
  | some e => .error e
  | none =>
    match classify (activeCount d.w) with
    | .error e => .error e
    | .ok sym => .ok (sym, { d with lastPeak := some stamp })

/-- BIT.CLASSIFY (R120 to R123): writes `last_peak` and hands on the symbol, or raises. -/
def execBitClassify (stamp : Timer) (s : State) : Host.Outcome State Fault Refusal :=
  match s.dec.bitClassify stamp with
  | .error e => .next (s.raise e)
  | .ok (sym, d) => .next ((s.setDec d).handOn (.symbol sym))

end Sys2Proof.Machine
end

