-- ==== Sys2Proof/Machine/Correlator.lean ====
section
/-! DEFINITION. SampleHistory and the matched-filter correlator: HIST.SHIFT, CORR.SCORE (R100 to R104). -/

namespace Sys2Proof.Machine

/-- `HIST.SHIFT(s)`: the sample enters at age 0, the oldest is lost, `wcount` saturates at `N`
(R41, R100). -/
def DecState.histShift (d : DecState) (sample : Bool) : DecState :=
  { d with
    w := (d.w <<< 1) ||| (BitVec.ofBool sample).setWidth 200
    wcount := BitVec.ofNat 8 (min (d.wcount.toNat + 1) Config.core1.n) }

/-- `popcount`: the number of 1 bits (R8). -/
def popcount (v : Window) : Nat := (List.range 200).countP fun k => v.getLsbD k

/-- `CORR.SCORE`: `popcount((~W) & P)` (R101). -/
def corrScore (w : Window) : Nat := popcount (~~~w &&& Config.core1.pattern)

/-- The window is full, so a score is produced (R102). -/
def DecState.windowFull (d : DecState) : Bool := decide (Config.core1.n ≤ d.wcount.toNat)

/-- HIST.SHIFT (R100). -/
def execHistShift (sample : Bool) (s : State) : Host.Outcome State Fault Refusal :=
  .next (s.setDec (s.dec.histShift sample))

/-- CORR.SCORE (R101): writes nothing; it produces a score only when `wcount = N` (R102; entry 11). -/
def execCorrScore (s : State) : Host.Outcome State Fault Refusal :=
  .next (s.handOn (.score (if s.dec.windowFull then some (corrScore s.dec.w) else none)))

end Sys2Proof.Machine
end

