-- ==== Sys2Proof/Machine/FrameAssembler.lean ====
section
/-! DEFINITION. The FrameAssembler: FRAME.PUSH, FRAME.EXTRACT (R130 to R135). -/

namespace Sys2Proof.Machine

/-- FRAME.PUSH, part 1: append (R130). R134 shows the ring is never full here; on a full ring the
content is a free value, at most `FB_CAP` long (entry 12). -/
def appendSymbol (fb : List Symbol) (sym : Symbol) : List Symbol :=
  if fb.length < Config.core1.fbCap then fb ++ [sym]
  else (Config.pushOntoFullRing fb sym).take Config.core1.fbCap

/-- FRAME.PUSH, part 2: everything before the first MinuteEnd is dropped, all of it when there is
none (R131). -/
def reanchor (fb : List Symbol) : List Symbol := fb.dropWhile fun x => decide (x ≠ .minuteEnd)

/-- FRAME.PUSH (R130, R131). -/
def DecState.framePush (d : DecState) (sym : Symbol) : DecState :=
  { d with fb := reanchor (appendSymbol d.fb sym) }

/-- The pops for `n` frame bits (R132): the bits, none when a MinuteEnd aborts them (R133), and the
symbols left. The offending MinuteEnd is consumed. High is true (R135). -/
def popBits : Nat → List Symbol → Option (List Bool) × List Symbol
  | 0, fb => (some [], fb)
  | _ + 1, [] => (none, [])
  | n + 1, x :: rest =>
    if x = .minuteEnd then (none, rest)
    else
      ((popBits n rest).1.map (fun bits => decide (x = .high) :: bits), (popBits n rest).2)

/-- The frame whose bit `i` is the `i`-th boolean (R43). -/
def frameOfBits (bits : List Bool) : Frame :=
  BitVec.ofNat 59 (bits.foldr (fun b n => b.toNat + 2 * n) 0)

/-- What FRAME.EXTRACT answers and leaves in the buffer (R132, R133): the frame if one is complete,
whether an extraction was begun and aborted, and the symbols left. -/
def extractFrame (fb : List Symbol) : Option Frame × Bool × List Symbol :=
  if fb.length = Config.core1.fbCap ∧ fb.head? = some .minuteEnd then
    let popped := popBits Config.core1.frameLen fb.tail
    (popped.1.map frameOfBits, popped.1.isNone, popped.2)
  else (none, false, fb)

/-- FRAME.PUSH (R130, R131): writes `FB`, `fb_len`. -/
def execFramePush (sym : Symbol) (s : State) : Host.Outcome State Fault Refusal :=
  .next (s.setDec (s.dec.framePush sym))

/-- FRAME.EXTRACT (R132, R133): writes `FB`, `fb_len`; hands on the optional frame. -/
def execFrameExtract (s : State) : Host.Outcome State Fault Refusal :=
  let extracted := extractFrame s.dec.fb
  .next ((s.setDec { s.dec with fb := extracted.2.2 }).handOn (.frame extracted.1 extracted.2.1))

end Sys2Proof.Machine
end

