-- ==== Sys2Proof/Machine/PhaseDetector.lean ====
section
/-! DEFINITION. The PhaseDetector: PHASE.STEP (R110 to R113). -/

namespace Sys2Proof.Machine

/-- PHASE.STEP, part 1: the score is appended, and a full ring drops its oldest (R110). Written as
"the last `F` scores", which is R110 for every ring of at most `F` (entry 17). -/
def pushScore (ring : List Score) (score : Score) : List Score :=
  (ring ++ [score]).drop ((ring ++ [score]).length - Config.core1.f)

/-- `avg`: the floor of the mean of the ring (R112). -/
def ringAverage (ring : List Score) : Nat := (ring.map BitVec.toNat).sum / Config.core1.f

/-- `height = max(0, score - (avg + MARGIN))` (R112), at most 255, in the 8 bits of `prev_height`. -/
def excessHeight (ring : List Score) (score : Score) : BitVec 8 :=
  BitVec.ofNat 8 ((score.toNat : Int) - (ringAverage ring + Config.core1.margin)).toNat

/-- PHASE.STEP, part 3: the peak (strictly below the previous height, latch clear), the latch and the
previous height, all from the old values (R113). -/
def DecState.detectPeak (d : DecState) (height : BitVec 8) : Bool × DecState :=
  let peak := decide (height.toNat < d.prevHeight.toNat) && !d.latch
  (peak, { d with
    latch := if height = 0#8 then false else d.latch || peak
    prevHeight := height })

/-- PHASE.STEP: push (R110); parts 2 and 3 only with a full ring (R111); threshold (R112); peak and
latch (R113). Answers whether the detector was active, the peak, and the new sub-state. -/
def DecState.phaseStep (d : DecState) (score : Score) : Bool × Bool × DecState :=
  let ring := pushScore d.s score
  let d1 := { d with s := ring }
  if ring.length < Config.core1.f then (false, false, d1)
  else (true, d1.detectPeak (excessHeight ring score))

/-- PHASE.STEP (R110 to R113): writes `S`, `sfill`, `prev_height`, `latch`; hands on the peak. -/
def execPhaseStep (score : Score) (s : State) : Host.Outcome State Fault Refusal :=
  .next ((s.setDec (s.dec.phaseStep score).2.2).handOn (.peak (s.dec.phaseStep score).2.1))

end Sys2Proof.Machine
end

