-- ==== Sys2Proof/Machine/ProtocolDecoder.lean ====
section
/-! DEFINITION. The ProtocolDecoder: PROTO.DECODE (R140 to R155). -/

namespace Sys2Proof.Machine

/-- A decoder error of the protocol decoder, its information word a number (R230). -/
def protoErr (kind : ErrKind) (info : Nat) : DecErr := { kind := kind, info := BitVec.ofNat 16 info }

/-- Checks 1 to 6: start bits, summer-time flags, parities, in the order of R140 (R141 to R146). -/
def structureError (fr : Frame) : Option DecErr :=
  if fr.getLsbD 20 = false then some (protoErr .badStartOfTime 0)
  else if fr.getLsbD 0 = true then some (protoErr .badStartOfMinute 0)
  else if fr.getLsbD 17 = fr.getLsbD 18 then
    some (protoErr .summerTime (2 * (fr.getLsbD 17).toNat + (fr.getLsbD 18).toNat))
  else if oddParity fr 21 28 = true then some (protoErr .minuteParity 0)
  else if oddParity fr 29 35 = true then some (protoErr .hourParity 0)
  else if oddParity fr 36 58 = true then some (protoErr .dateParity 0)
  else none

/-- Checks 7 to 12: the six ranges in frame order (R147 to R152). -/
def rangeError (minute hour day weekday month year : Nat) : Option DecErr :=
  if 59 < minute then some (protoErr .minuteRange minute)
  else if 23 < hour then some (protoErr .hourRange hour)
  else if day < 1 ∨ 31 < day then some (protoErr .dayRange day)
  else if weekday < 1 then some (protoErr .weekdayRange weekday)
  else if month < 1 ∨ 12 < month then some (protoErr .monthRange month)
  else if 99 < year then some (protoErr .yearRange year)
  else none

/-- The Datetime of the six field values, its second absent (R153). -/
def decodedDatetime (minute hour day weekday month year : Nat) : Datetime where
  date := { day := BitVec.ofNat 5 day, month := BitVec.ofNat 4 month,
            year := BitVec.ofNat 7 year, weekday := BitVec.ofNat 3 weekday }
  time := { hour := BitVec.ofNat 5 hour, minute := BitVec.ofNat 6 minute, second := none }

/-- `PROTO.DECODE(fr)`: the twelve checks in order; the first that fails raises its error (R140); when
all pass, the Datetime (R153). Bits 1 to 16 and 19 are not read (R154). -/
def protoDecode (fr : Frame) : Except DecErr Datetime :=
  match structureError fr with
  | some e => .error e
  | none =>
    let minute := fieldValue fr 21 27
    let hour := fieldValue fr 29 34
    let day := fieldValue fr 36 41
    let weekday := fieldValue fr 42 44
    let month := fieldValue fr 45 49
    let year := fieldValue fr 50 57
    match rangeError minute hour day weekday month year with
    | some e => .error e
    | none => .ok (decodedDatetime minute hour day weekday month year)

/-- PROTO.DECODE (R140): hands on the Datetime, or raises. -/
def execProtoDecode (fr : Frame) (s : State) : Host.Outcome State Fault Refusal :=
  match protoDecode fr with
  | .error e => .next (s.raise e)
  | .ok dt => .next (s.handOn (.decoded dt))

end Sys2Proof.Machine
end

