-- ==== Sys2Proof/Machine/Orchestration.lean ====
section
/-! DEFINITION. Decoder orchestration: DEC.POLL, DEC.RESYNC (R170 to R179). -/

namespace Sys2Proof.Machine

/-- Steps 11 to 15 of the pipeline: the symbol is pushed, a frame extracted, a frame decoded (R174). -/
def DecState.assemble (d : DecState) (r : Poll) (sym : Symbol) : Poll × DecState :=
  let pushed := d.framePush sym
  let extracted := extractFrame pushed.fb
  let d' := { pushed with fb := extracted.2.2 }
  let r' := { r with frame := extracted.1, aborted := extracted.2.1 }
  match extracted.1 with
  | none => (r', d')
  | some f =>
    match protoDecode f with
    | .error e => ({ r' with outcome := .error e }, d')
    | .ok dt => ({ r' with outcome := .synced dt }, d')

/-- Steps 8 to 15: a confirmed peak is classified (R174). -/
def DecState.confirmPeak (d : DecState) (r : Poll) (stamp : Timer) : Poll × DecState :=
  match d.bitClassify stamp with
  | .error e => ({ r with outcome := .error e }, d)
  | .ok (sym, d') =>
    d'.assemble { r with symbol := some sym, count := some (activeCount d.w) } sym

/-- The sub-state once an accepted sample is remembered and fed: `last_smp` takes the stamp (R172), and
HIST.SHIFT takes the level (R174, step 1). -/
def DecState.fed (d : DecState) (smp : Sample) : DecState :=
  { d.histShift smp.level with lastSmp := some smp.stamp }

/-- Steps 3 to 15 of the pipeline, with a full window: the score, PHASE.STEP, and the peak if there is
one (R174). -/
def DecState.detect (d : DecState) (stamp : Timer) : Poll × DecState :=
  let score := corrScore d.w
  let stepped := d.phaseStep (BitVec.ofNat 8 score)
  let r := { Poll.none with accepted := true, score := some score, peak := stepped.2.1 }
  if stepped.2.1 then stepped.2.2.confirmPeak r stamp else (r, stepped.2.2)

/-- `DEC.POLL`, step 3: the pipeline for an accepted sample (R174); it stops after step 1 while the
window is not full (step 2, R102). -/
def DecState.accept (d : DecState) (smp : Sample) : Poll × DecState :=
  if (d.fed smp).windowFull then (d.fed smp).detect smp.stamp
  else ({ Poll.none with accepted := true }, d.fed smp)

/-- `DEC.POLL(smp)`: stale or absent samples do nothing (R171), the period check (R172), the first
sample (R173), the pipeline (R174). After an error the sub-state answered is not used: the resync
replaces it (`State.decPoll`). -/
def DecState.poll (d : DecState) (smp : Option Sample) : Poll × DecState :=
  match smp with
  | none => (Poll.none, d)
  | some p =>
    match d.lastSmp with
    | none => d.accept p
    | some l =>
      if p.stamp = l then (Poll.none, d)
      else if timerSub p.stamp l < Config.core1.period then (Poll.none, d)
      else if timerSub p.stamp l > Config.core1.period then
        ({ Poll.none with
            outcome := .error { kind := .missedPolledValue, info := deltaInfo (timerSub p.stamp l) } }, d)
      else d.accept p

/-- `DEC.POLL` on the machine: the changes made before an early return stay (R175); an error resyncs
(R176). -/
def State.decPoll (s : State) (smp : Option Sample) : Poll × State :=
  let polled := s.dec.poll smp
  (polled.1,
    match polled.1.outcome with
    | .error e => s.resync e
    | .nothing => s.setDec polled.2
    | .synced _ => s.setDec polled.2)

/-- DEC.POLL (R170): hands on its record. -/
def execDecPoll (smp : Option Sample) (s : State) : Host.Outcome State Fault Refusal :=
  .next ((s.decPoll smp).2.handOn (.poll (s.decPoll smp).1))

/-- DEC.RESYNC (R176). -/
def execDecResync (e : DecErr) (s : State) : Host.Outcome State Fault Refusal :=
  .next (s.raise e)

end Sys2Proof.Machine
end

