-- ==== Sys2Proof/Machine/TimeArbiter.lean ====
section
/-! DEFINITION. The TimeArbiter: UPDATE, the RTC merge, the phase machine, the other host commands (R190 to R207,
R211, R212), and the reset of the CORE (R260). -/

namespace Sys2Proof.Machine

/-! ### The RTC -/

/-- `RTC.WRITE`: the write request and its payload (R193, R196). UPDATE writes a Datetime without a
second; with one, which only the operation run by itself can be given, `rtc_wsec_valid` is 1: DEDUCED
(R30, R76; entry 21). -/
def State.rtcWrite (s : State) (dt : Datetime) : State :=
  { s with
    out := { s.out with
      rtcWreq := true
      rtcWdata := packDatetime dt
      rtcWsecValid := dt.time.second.isSome } }

/-- The Datetime a read yields: none when the read fails or its payload is no Datetime (R194, R195). -/
def RtcPort.reading (p : RtcPort) : Option Datetime :=
  if p.rok then unpackDatetime p.rdata else none

/-- `RTC.READ`: the read request; `datetime` is overwritten with what the read yields (R194). -/
def State.rtcRead (s : State) : State :=
  { s with
    clk := { s.clk with datetime := s.rtc.reading }
    out := { s.out with rtcRreq := true } }

/-! ### The phase machine -/

/-- The once-per-day guard of `Default` (R198). -/
def guardHolds (phase : Phase) (now : Datetime) : Bool :=
  match phase with
  | .default (some d) => decide (d = now.date.day)
  | .default none => false
  | .dawn _ => false
  | .sunRise _ => false

/-- The sunrise configured for the day type of `now`; Saturday and Sunday are the weekend (R199). -/
def sunriseFor (c : ClockAgg) (now : Datetime) : Option Time :=
  if now.date.weekday = 6#3 ∨ now.date.weekday = 7#3 then c.weekendSunrise else c.weekSunrise

/-- `elapsed`, in minutes, without a wrap at midnight (R200). -/
def elapsedMinutes (now : Datetime) (sunrise : Time) : Int :=
  (now.time.minuteOfDay : Int) - sunrise.minuteOfDay

/-- The transitions on `elapsed`: to SunRise (R201), to Dawn (R202), or none (R203). -/
def phaseAtElapsed (c : ClockAgg) (elapsed : Int) : Phase :=
  if 0 ≤ elapsed then .sunRise (BitVec.ofNat 12 elapsed.toNat)
  else
    match c.dawnDuration with
    | none => c.phase
    | some dur =>
      if 0 ≤ elapsed + dur.toNat then .dawn (BitVec.ofNat 12 (elapsed + dur.toNat).toNat)
      else c.phase

/-- The phase after an evaluation at `now`: guard (R198), sunrise (R199), transitions (R201 to R203). -/
def phaseAt (c : ClockAgg) (now : Datetime) : Phase :=
  if guardHolds c.phase now then c.phase
  else
    match sunriseFor c now with
    | none => c.phase
    | some sunrise => phaseAtElapsed c (elapsedMinutes now sunrise)

/-- `PHASE.EVAL`: only when the time is known; it writes `phase` only (R197). -/
def State.phaseEval (s : State) : State :=
  match s.clk.datetime with
  | none => s
  | some now => s.setClk { s.clk with phase := phaseAt s.clk now }

/-! ### UPDATE -/

/-- Step 2 of UPDATE: `last_bit` (R191). -/
def State.noteSymbol (s : State) (r : Poll) : State :=
  match r.symbol with
  | none => s
  | some sym => s.setClk { s.clk with lastBit := some sym }

/-- Step 3 of UPDATE: `last_radio_sync`, then the RTC write, whose answer changes nothing
(R192, R193). -/
def State.noteSync (s : State) (r : Poll) : State :=
  match r.outcome with
  | .nothing => s
  | .error _ => s
  | .synced dt => (s.setClk { s.clk with lastRadioSync := some dt }).rtcWrite dt

/-- The state of an UPDATE after step 4, and the Decoder's record: the Decoder on the snapshot of the
published pair, the symbol, the sync and its RTC write, the RTC read (R50, R55, R190). -/
def State.updateToRead (s : State) : Poll × State :=
  let polled := (s.respond 0#32).decPoll s.hw.pub
  (polled.1, ((polled.2.noteSymbol polled.1).noteSync polled.1).rtcRead)

/-- `UPDATE`: the six steps of R190; the status word compares the phase with the phase before step 1
(R212). -/
def State.update (s : State) : State :=
  let read := s.updateToRead
  let s5 := read.2.phaseEval
  { s5 with
    out := { s5.out with
      rspData := statusWord
        (updateFlags read.1 s.rtc.wack read.2.clk.datetime s.clk.phase s5.clk.phase) } }

/-! ### The commands -/

/-- NOP (R211). -/
def execNop (s : State) : Host.Outcome State Fault Refusal := .next (s.respond 0#32)

/-- UPDATE (R190). -/
def execUpdate (s : State) : Host.Outcome State Fault Refusal := .next s.update

/-- ACK (R204): `Default` with the day of the `datetime` held, or with none. -/
def execAck (s : State) : Host.Outcome State Fault Refusal :=
  .next ((s.setClk { s.clk with
    phase := .default (s.clk.datetime.map fun now => now.date.day) }).respond 0#32)

/-- SETDAWN (R205). -/
def execSetdawn (v : Bool) (min : Minutes) (s : State) : Host.Outcome State Fault Refusal :=
  .next ((s.setClk { s.clk with dawnDuration := minutesOperand v min }).respond 0#32)

/-- SETWEEK (R206): refused whole when the Time cannot be constructed (R70 (c)). -/
def execSetweek (v : Bool) (hour : BitVec 5) (minute : BitVec 6) (s : State) :
    Host.Outcome State Fault Refusal :=
  if timeOperandBad v hour minute then .next s.refuse
  else .next ((s.setClk { s.clk with weekSunrise := timeOperand v hour minute }).respond 0#32)

/-- SETWKND (R207): as SETWEEK, for the weekend. -/
def execSetwknd (v : Bool) (hour : BitVec 5) (minute : BitVec 6) (s : State) :
    Host.Outcome State Fault Refusal :=
  if timeOperandBad v hour minute then .next s.refuse
  else .next ((s.setClk { s.clk with weekendSunrise := timeOperand v hour minute }).respond 0#32)

/-! ### The internal operations of this family -/

/-- RTC.WRITE (R193): hands on the RTC's acknowledgement, which no state depends on. -/
def execRtcWrite (dt : Datetime) (s : State) : Host.Outcome State Fault Refusal :=
  .next ((s.rtcWrite dt).handOn (.ack s.rtc.wack))

/-- RTC.READ (R194). -/
def execRtcRead (s : State) : Host.Outcome State Fault Refusal := .next s.rtcRead

/-- PHASE.EVAL (R197). -/
def execPhaseEval (s : State) : Host.Outcome State Fault Refusal := .next s.phaseEval

/-- RESET (R260): the CORE's sub-state, aggregate and outputs take their reset values. The
HardwareClock, the RTC and the agents' actions to come are outside the CORE (R261; entry 7). -/
def execReset (s : State) : Host.Outcome State Fault Refusal :=
  .next { s with
    dec := DecState.empty, clk := ClockAgg.reset, out := Outputs.idle, stage := .none }

end Sys2Proof.Machine
end

