-- ==== Sys2Proof/Machine/Dispatch.lean ====
section
/-! DEFINITION. exec: one arm per operation, each a direct call of its meaning. -/

namespace Sys2Proof.Machine

def exec (i : Instr) (s : State) : Host.Outcome State Fault Refusal :=
  match i with
  | .nop => Sys2Proof.Machine.execNop s
  | .update => Sys2Proof.Machine.execUpdate s
  | .ack => Sys2Proof.Machine.execAck s
  | .setdawn v min => Sys2Proof.Machine.execSetdawn v min s
  | .setweek v hour minute => Sys2Proof.Machine.execSetweek v hour minute s
  | .setwknd v hour minute => Sys2Proof.Machine.execSetwknd v hour minute s
  | .rdreg reg => Sys2Proof.Machine.execRdreg reg s
  | .rdregCurDate => Sys2Proof.Machine.execRdregCurDate s
  | .rdregCurTime => Sys2Proof.Machine.execRdregCurTime s
  | .rdregSyncDate => Sys2Proof.Machine.execRdregSyncDate s
  | .rdregSyncTime => Sys2Proof.Machine.execRdregSyncTime s
  | .rdregPhase => Sys2Proof.Machine.execRdregPhase s
  | .rdregLastbit => Sys2Proof.Machine.execRdregLastbit s
  | .rdregQuarters => Sys2Proof.Machine.execRdregQuarters s
  | .rdregLasterr => Sys2Proof.Machine.execRdregLasterr s
  | .rdregDawn => Sys2Proof.Machine.execRdregDawn s
  | .rdregWeek => Sys2Proof.Machine.execRdregWeek s
  | .rdregWknd => Sys2Proof.Machine.execRdregWknd s
  | .rdregDecstat => Sys2Proof.Machine.execRdregDecstat s
  | .rdregFbstat => Sys2Proof.Machine.execRdregFbstat s
  | .rdregSmpstamp => Sys2Proof.Machine.execRdregSmpstamp s
  | .rdregPeakstamp => Sys2Proof.Machine.execRdregPeakstamp s
  | .tick pin => Sys2Proof.Machine.execTick pin s
  | .tsub a b => Sys2Proof.Machine.execTsub a b s
  | .latestSample => Sys2Proof.Machine.execLatestSample s
  | .currentTimer => Sys2Proof.Machine.execCurrentTimer s
  | .histShift sample => Sys2Proof.Machine.execHistShift sample s
  | .corrScore => Sys2Proof.Machine.execCorrScore s
  | .phaseStep score => Sys2Proof.Machine.execPhaseStep score s
  | .bitClassify stamp => Sys2Proof.Machine.execBitClassify stamp s
  | .framePush sym => Sys2Proof.Machine.execFramePush sym s
  | .frameExtract => Sys2Proof.Machine.execFrameExtract s
  | .protoDecode fr => Sys2Proof.Machine.execProtoDecode fr s
  | .decPoll smp => Sys2Proof.Machine.execDecPoll smp s
  | .decResync e => Sys2Proof.Machine.execDecResync e s
  | .rtcWrite dt => Sys2Proof.Machine.execRtcWrite dt s
  | .rtcRead => Sys2Proof.Machine.execRtcRead s
  | .phaseEval => Sys2Proof.Machine.execPhaseEval s
  | .reset => Sys2Proof.Machine.execReset s

end Sys2Proof.Machine
end

