-- ==== Sys2Proof/Machine/Fetch.lean ====
section
/-! DEFINITION. Which agent acts next and what it asks for (R5, R6, R49; entry 1). -/

namespace Sys2Proof.Machine

/-- What the next event asks for: an operation to run, or a state already settled. -/
inductive Next where
  | run (i : Instr) (s : State)
  | settled (s : State)
deriving DecidableEq, Repr

/-- The host's command word: the operation it decodes to, or the refusal (R70, R234). -/
def State.hostCommand (s : State) (cmd : Word) : Next :=
  match decode cmd with
  | .ok i => .run i s
  | .error _ => .settled s.refuse

/-- One event: a command word is decoded, a tick and a reset run their operations, the HardwareClock
takes its reset value (R261), and the environment drives its ports (R242, R244). -/
def State.deliver (s : State) : Event → Next
  | .host cmd => s.hostCommand cmd
  | .tick pin => .run (.tick pin) s
  | .rst => .run .reset s
  | .rstClock => .settled { s with hw := HwClock.reset }
  | .rtc answer => .settled { s with rtc := answer }
  | .smp p => .settled { s with hw := { s.hw with pub := p } }

/-- The next event leaves `inbox` and is delivered; with no event to come nothing happens (R274;
entry 2). -/
def State.fetch (s : State) : Next :=
  match s.inbox with
  | [] => .settled s
  | e :: rest => State.deliver { s with inbox := rest } e

/-- The command word that the next step takes. -/
def State.issue (s : State) (cmd : Word) : State := { s with inbox := .host cmd :: s.inbox }

end Sys2Proof.Machine
end

