-- ==== Sys2Proof/Machine/Step.lean ====
section
/-! DEFINITION. One step of the machine: one action of one agent (R5, R6). -/

namespace Sys2Proof.Machine

/-- The next event is fetched and the operation it asks for runs (entry 1). -/
def step (s : State) : Host.Outcome State Fault Refusal :=
  match s.fetch with
  | .run i s' => exec i s'
  | .settled s' => .next s'

/-- `s` with the command word `w`, `nbits` of its bits given and the higher ones 0, as the next event:
the very next step takes it (entry 1). -/
def State.withFetchWord (s : State) (nbits w : Nat) : State :=
  s.issue (BitVec.ofNat 32 (w % 2 ^ nbits))

end Sys2Proof.Machine
end

