-- ==== Sys2Proof/Safety.lean ====
section
/-! DEFINITION. The terms the statements use: the invariant of every reachable state (R32, R215), runs of internal
operations, the stages of a poll one by one (R174), the frame encoder for testing (R156), ill-formed words (R70). -/

namespace Sys2Proof.Machine

/-! ### The invariant -/

/-- R32 (a), (b), (c) and (d), its bound, and the bounds of R215 on scores and heights. -/
abbrev DecState.Inv (d : DecState) : Prop :=
  d.wcount.toNat ≤ 200 ∧ d.sfill ≤ 50 ∧ (0 < d.sfill → d.wcount.toNat = 200) ∧
  (d.prevHeight ≠ 0#8 ∨ d.latch = true → d.sfill = 50) ∧
  (d.lastPeak.isSome = true → d.lastSmp.isSome = true ∧ d.sfill = 50) ∧
  d.fbLen ≤ 59 ∧ (∀ x ∈ d.s, x.toNat ≤ 160) ∧ d.prevHeight.toNat ≤ 152

/-- The days and minute counts of a phase in range (R24, R32 (f), (g)). -/
def Phase.inRange : Phase → Bool
  | .default none => true
  | .default (some d) => decide (1 ≤ d.toNat)
  | .dawn e => decide (e.toNat ≤ 4094)
  | .sunRise e => decide (e.toNat ≤ 1439)

/-- R32 (f) and (g), and which seconds are present (R18, R20, R21, R26). -/
abbrev ClockAgg.Inv (c : ClockAgg) : Prop :=
  (∀ dt ∈ c.datetime, dt.wf = true ∧ dt.time.second.isSome = true) ∧
  (∀ dt ∈ c.lastRadioSync, dt.wf = true ∧ dt.time.second = none) ∧
  Phase.inRange c.phase = true ∧
  (∀ t ∈ c.weekSunrise, t.wf = true ∧ t.second = none) ∧
  (∀ t ∈ c.weekendSunrise, t.wf = true ∧ t.second = none)

/-- The Timer's range (R90), and the vote bounded by the ticks since it was cleared (R93). -/
abbrev HwClock.Inv (h : HwClock) : Prop :=
  h.timer.toNat ≤ 65520 ∧ h.vote.natAbs ≤ h.timer.toNat % 20

/-- The invariant of the machine; the last clause is "always 0 in this block" of R30. -/
abbrev State.Inv (s : State) : Prop :=
  s.dec.Inv ∧ s.clk.Inv ∧ s.hw.Inv ∧ s.out.rtcWsecValid = false

/-! ### Runs of internal operations -/

/-- `f` from the next state of `o`. -/
def andThen (o : Host.Outcome State Fault Refusal) (f : State → Host.Outcome State Fault Refusal) :
    Host.Outcome State Fault Refusal :=
  match o with
  | .next s => f s
  | .fault r => .fault r
  | .refused r => .refused r

/-- The operations of a list, one after another. -/
def execAll : List Instr → State → Host.Outcome State Fault Refusal
  | [], s => .next s
  | i :: rest, s => andThen (exec i s) (execAll rest)

/-- The results handed on by a run of stages, in order, and how the run ended. -/
abbrev StageRun : Type := List StageOut × Host.Outcome State Fault Refusal

/-- A stage that hands on nothing, then `rest`. -/
def thenRun (o : Host.Outcome State Fault Refusal) (rest : State → StageRun) : StageRun :=
  match o with
  | .next s => rest s
  | .fault r => ([], .fault r)
  | .refused r => ([], .refused r)

/-- A stage whose result is noted, then `rest`. -/
def thenNote (o : Host.Outcome State Fault Refusal) (rest : State → StageRun) : StageRun :=
  thenRun o fun s => (s.stage :: (rest s).1, (rest s).2)

/-- The stages of an accepted sample run one by one as operations of their own, each on what the one
before it handed on, in the order of R174; with what each handed on. HIST.SHIFT and FRAME.PUSH hand on
nothing. -/
def stagewise (s : State) (p : Sample) : StageRun :=
  thenRun (exec (.histShift p.level) (s.setDec { s.dec with lastSmp := some p.stamp })) fun s1 =>
  thenNote (exec .corrScore s1) fun s2 =>
  match s2.stage with
  | .score (some n) =>
    thenNote (exec (.phaseStep (BitVec.ofNat 8 n)) s2) fun s3 =>
    match s3.stage with
    | .peak true =>
      thenNote (exec (.bitClassify p.stamp) s3) fun s4 =>
      match s4.stage with
      | .symbol sym =>
        thenRun (exec (.framePush sym) s4) fun s5 =>
        thenNote (exec .frameExtract s5) fun s6 =>
        match s6.stage with
        | .frame (some fr) _ => thenNote (exec (.protoDecode fr) s6) fun s7 => ([], .next s7)
        | _ => ([], .next s6)
      | _ => ([], .next s4)
    | _ => ([], .next s3)
  | _ => ([], .next s2)

/-- The peaks and the heights left by a run of PHASE.STEP over a list of scores (R113). -/
def peakTrace (d : DecState) : List Score → List (Bool × BitVec 8)
  | [] => []
  | x :: rest =>
    ((d.phaseStep x).2.1, (d.phaseStep x).2.2.prevHeight) :: peakTrace (d.phaseStep x).2.2 rest

/-- Samples whose stamps are one sampling period apart, each from the one before (R97). -/
abbrev Consecutive (samples : List Sample) : Prop :=
  ∀ pq ∈ samples.zip samples.tail,
    timerSub pq.2.stamp pq.1.stamp = 20 ∧ pq.2.stamp ≠ pq.1.stamp

/-! ### The frame encoder for testing (R156) -/

/-- The bits of a field of width `w`: the ones digit in bits 0 to 3, the tens digit above, cut to `w`
bits (R156). -/
def fieldBits (w v : Nat) : BitVec w := BitVec.ofNat w (v % 10 + 16 * (v / 10))

/-- The number of 1 bits is odd (R64). -/
def oddOnes {w : Nat} (x : BitVec w) : Bool := (List.range w).foldl (fun p i => p ^^ x.getLsbD i) false

/-- `encode(dt, cest, filler)` of R156; `filler` bits 0 to 15 stand in frame bits 1 to 16, bit 16 in
frame bit 19. The CORE contains no encoder: this is for the statement of R156 only. -/
def encodeFrame (dt : Datetime) (cest : Bool) (filler : BitVec 17) : Frame :=
  let minute := fieldBits 7 dt.time.minute.toNat
  let hour := fieldBits 6 dt.time.hour.toNat
  let date : BitVec 22 := fieldBits 8 dt.date.year.toNat ++ fieldBits 5 dt.date.month.toNat
    ++ fieldBits 3 dt.date.weekday.toNat ++ fieldBits 6 dt.date.day.toNat
  BitVec.ofBool (oddOnes date) ++ date ++ BitVec.ofBool (oddOnes hour) ++ hour
    ++ BitVec.ofBool (oddOnes minute) ++ minute ++ 1#1 ++ filler.extractLsb' 16 1
    ++ BitVec.ofBool (!cest) ++ BitVec.ofBool cest ++ filler.extractLsb' 0 16 ++ 0#1

/-- `fr` with bit `i` flipped. -/
def flipBit (fr : Frame) (i : Nat) : Frame := fr ^^^ (1#59 <<< i)

/-- Frame bit `i` as a number. -/
def bitNat (fr : Frame) (i : Nat) : Nat := if fr.getLsbD i then 1 else 0

/-! ### The phase machine and the RTC payload, as relations -/

/-- `next` is the phase that R198 to R203 give for the aggregate `c` at the time `now`. -/
def PhaseFollows (c : ClockAgg) (now : Datetime) (next : Phase) : Prop :=
  let sunrise := if now.date.weekday.toNat = 6 ∨ now.date.weekday.toNat = 7
    then c.weekendSunrise else c.weekSunrise
  (c.phase = .default (some now.date.day) → next = c.phase) ∧
  (c.phase ≠ .default (some now.date.day) →
    (sunrise = none → next = c.phase) ∧
    (∀ t, sunrise = some t → ∀ e : Int,
      e = ((now.time.hour.toNat : Int) * 60 + now.time.minute.toNat)
        - (t.hour.toNat * 60 + t.minute.toNat) →
      (0 ≤ e → ∃ m : Minutes, next = .sunRise m ∧ (m.toNat : Int) = e) ∧
      (e < 0 → ∀ dur, c.dawnDuration = some dur → 0 ≤ e + dur.toNat →
        ∃ m : Minutes, next = .dawn m ∧ (m.toNat : Int) = e + dur.toNat) ∧
      (e < 0 → (∀ dur, c.dawnDuration = some dur → e + dur.toNat < 0) → next = c.phase)))

/-- Nibble `i` of a payload, the lowest first. -/
def nibble (p : Payload) (i : Nat) : Nat := p.toNat / 16 ^ i % 16

/-- The payload `p` is a Datetime by R195, and `d` is that Datetime. -/
def PayloadDenotes (p : Payload) (d : Datetime) : Prop :=
  (∀ i ∈ [0, 1, 2, 3, 4, 5, 8, 9, 10, 11, 12, 13], nibble p i ≤ 9) ∧
  (∃ sec, d.time.second = some sec ∧ sec.toNat = 10 * nibble p 1 + nibble p 0 ∧ sec.toNat ≤ 59) ∧
  (d.time.minute.toNat = 10 * nibble p 3 + nibble p 2 ∧ d.time.minute.toNat ≤ 59) ∧
  (d.time.hour.toNat = 10 * nibble p 5 + nibble p 4 ∧ d.time.hour.toNat ≤ 23) ∧
  (d.date.weekday.toNat = 16 * nibble p 7 + nibble p 6 ∧ 1 ≤ d.date.weekday.toNat) ∧
  (d.date.day.toNat = 10 * nibble p 9 + nibble p 8 ∧ 1 ≤ d.date.day.toNat) ∧
  (d.date.month.toNat = 10 * nibble p 11 + nibble p 10 ∧ 1 ≤ d.date.month.toNat ∧
    d.date.month.toNat ≤ 12) ∧
  d.date.year.toNat = 10 * nibble p 13 + nibble p 12

/-! ### Command words and events -/

/-- The output ports after a command that makes no RTC request (R68, R193): the response, no request,
and the idle write payload, which carries nothing (R31; entry 6). -/
abbrev answer (err : Bool) (data : Word) (idle : Payload) : Outputs where
  rspErr := err
  rspData := data
  rtcWreq := false
  rtcWdata := idle
  rtcWsecValid := false
  rtcRreq := false

/-- The four cases of R70, from the word's bits. -/
abbrev IllegalWord (w : Word) : Prop :=
  let op := w.extractLsb' 24 8
  op ∉ [0x00#8, 0x01#8, 0x02#8, 0x10#8, 0x11#8, 0x12#8, 0x20#8] ∨
  (op ∈ [0x00#8, 0x01#8, 0x02#8] ∧ w &&& 0x00FFFFFF#32 ≠ 0#32) ∨
  (op = 0x10#8 ∧ w &&& 0x00FEF000#32 ≠ 0#32) ∨
  (op ∈ [0x11#8, 0x12#8] ∧ (w &&& 0x00FEE0C0#32 ≠ 0#32 ∨
    (w.getLsbD 16 = true ∧ (23 < (w.extractLsb' 8 5).toNat ∨ 59 < (w.extractLsb' 0 6).toNat)))) ∨
  (op = 0x20#8 ∧ (w &&& 0x00FFFF00#32 ≠ 0#32 ∨ registerDefined (w.extractLsb' 0 8) = false))

/-- An event that shows only quiet samples: any command, any reset, any RTC answer, ticks with the pin
quiet, published pairs of level 0 (Scenario C). -/
def Event.quiet : Event → Bool
  | .host _ => true
  | .tick pin => !pin
  | .rst => true
  | .rstClock => true
  | .rtc _ => true
  | .smp p =>
    match p with
    | none => true
    | some q => !q.level

/-- Nothing but quiet samples was shown since the Decoder was empty, or is to come (Scenario C): the
window is quiet, so every score is 160 (R101), the height stays 0 (R112) and no symbol was produced. -/
abbrev State.Quiet (s : State) : Prop :=
  s.dec.w = 0#200 ∧ (∀ x ∈ s.dec.s, x = 160#8) ∧ s.dec.prevHeight = 0#8 ∧ s.dec.latch = false ∧
  s.dec.lastPeak = none ∧ s.dec.fb = [] ∧ s.clk.lastRadioSync = none ∧ s.clk.lastBit = none ∧
  s.hw.vote ≤ 0 ∧ (∀ p ∈ s.hw.pub, p.level = false) ∧ (∀ e ∈ s.inbox, Event.quiet e = true)

end Sys2Proof.Machine
end

