-- ==== Sys2Proof/Certificates/Slice0/Obligations.lean ====
section
/-! DEFINITION. The statements for the provers. -/

open Sys2Proof Sys2Proof.Machine

/-!
How to read them. `answer err data p` (Safety) is what the output ports carry after a command without an RTC
request; `p` is the write payload, which carries nothing then, so no statement says what it is (entry 6).
`stage` is the model's own field for what an operation run by itself hands on (entry 9): where a rule says
"returns" or "output", the statement says what `stage` becomes.
-/

/-! ### Encoding and decoding (R65 to R70) -/

/-- Decoding the word of a command gives the command back, with every operand at every value; RDREG
of a defined number comes back as its own row of the table (entry 8), every other command as it is. -/
def Obligations.DecodeOfEncodeGivesTheCommand : Prop :=
  ∀ (i : Instr) (w : Word), encode i = some w →
    decode w = .ok i.canonical ∧ ((∀ r, i ≠ .rdreg r) → i.canonical = i)

/-- Every accepted word is the word of the command it decodes to: no bit is dropped, and no two words
decode to one command. -/
def Obligations.EncodeOfDecodeGivesTheWord : Prop :=
  ∀ (w : Word) (i : Instr), decode w = .ok i → encode i = some w

/-- R70: a command word is refused in the four cases and in no other, and then nothing but the
response changes. -/
def Obligations.CommandWordRefusedExactlyWhenIllegal : Prop :=
  ∀ (s : State) (w : Word) (rest : List Event), s.inbox = .host w :: rest →
    ∃ t, step s = .next t ∧ (t.out.rspErr = true ↔ IllegalWord w) ∧
      (IllegalWord w → ∃ p, t = { s with inbox := rest, out := answer true 0#32 p })

/-- A step runs the operation its event asks for, on the state without that event: a command word that
decodes runs `exec` of the command, a tick and a reset run theirs, the other events write the ports
or the HardwareClock, and without an event nothing changes (the model's choice: entries 1, 2). -/
def Obligations.StepRunsTheNextEvent : Prop :=
  ∀ (s : State) (rest : List Event),
    (∀ w i, s.inbox = .host w :: rest → decode w = .ok i → step s = exec i { s with inbox := rest }) ∧
    (∀ pin, s.inbox = .tick pin :: rest → step s = exec (.tick pin) { s with inbox := rest }) ∧
    (s.inbox = .rst :: rest → step s = exec .reset { s with inbox := rest }) ∧
    (s.inbox = .rstClock :: rest →
      step s = .next { s with inbox := rest, hw := { timer := 0#16, vote := 0, pub := none } }) ∧
    (∀ a, s.inbox = .rtc a :: rest → step s = .next { s with inbox := rest, rtc := a }) ∧
    (∀ p, s.inbox = .smp p :: rest →
      step s = .next { s with inbox := rest, hw := { s.hw with pub := p } }) ∧
    (s.inbox = [] → step s = .next s)

/-- Words written out from R65, R66 and the vectors decode to the commands they stand for. That 0x20000004
decodes to the row of its register, and that 0x20000014 decodes at all and is refused by its meaning
(R70 (d)), is the model's choice (entry 8). -/
def Obligations.SampleWordsDecodeRight : Prop :=
  decode 0x00000000#32 = .ok .nop ∧ decode 0x01000000#32 = .ok .update ∧
  decode 0x02000000#32 = .ok .ack ∧ decode 0x10010014#32 = .ok (.setdawn true 20#12) ∧
  decode 0x11010600#32 = .ok (.setweek true 6#5 0#6) ∧
  decode 0x1201081E#32 = .ok (.setwknd true 8#5 30#6) ∧
  decode 0x20000004#32 = .ok .rdregPhase ∧ decode 0x20000014#32 = .ok (.rdreg 0x14#8) ∧
  decode 0x10011000#32 = .error .reservedBits ∧ decode 0x21000000#32 = .error .unknownOpcode

/-- RDREG of a defined number reads what the register's own row reads, and an undefined number is
refused (R208). -/
def Obligations.RdregReadsOrRefuses : Prop :=
  ∀ (r : BitVec 8) (s : State),
    (registerDefined r = true → ∃ reg, Reg.ofNumber r = some reg ∧ reg.number = r ∧
      exec (.rdreg r) s = exec reg.row s ∧
      ∃ p, exec (.rdreg r) s = .next { s with out := answer false (s.regRead reg) p }) ∧
    (registerDefined r = false →
      ∃ p, exec (.rdreg r) s = .next { s with out := answer true 0#32 p })

/-! ### The HardwareClock (R90 to R97) -/

/-- R92 and R93: one tick. -/
def Obligations.TickAdvancesTimerAndVotes : Prop :=
  ∀ (pin : Bool) (s : State), s.hw.timer.toNat ≤ 65520 →
    exec (.tick pin) s = .next { s with
      hw :=
        let timer : Timer := if s.hw.timer = 65520#16 then 1#16 else s.hw.timer + 1#16
        let vote : Int := s.hw.vote + (if pin then 1 else -1)
        if timer.toNat % 20 = 0 then
          { timer := timer, vote := 0, pub := some { stamp := timer, level := decide (0 < vote) } }
        else { timer := timer, vote := vote, pub := s.hw.pub } }

/-- R91: Timer subtraction on Timer values; from a reading that is not the cold-start 0 to one `n` ticks
later it is `n` modulo `TIMER_MAX`, so `n` itself when that is less. -/
def Obligations.TimerSubtractionMeasuresTicks : Prop :=
  ∀ (a b : Timer) (s : State), a.toNat ≤ 65520 → b.toNat ≤ 65520 →
    ∃ d : Int, exec (.tsub a b) s = .next { s with stage := .delta d } ∧
      (b.toNat ≤ a.toNat → d = (a.toNat : Int) - b.toNat) ∧
      (a.toNat < b.toNat → d = (a.toNat : Int) + 65520 - b.toNat) ∧
      0 ≤ d ∧ d ≤ 65520 ∧ (d - ((a.toNat : Int) - b.toNat)) % 65520 = 0 ∧
      (∀ n : Nat, b ≠ 0#16 → timerNext^[n] b = a → d = n % 65520)

/-- R93 and R97 over one whole sampling period: twenty ticks from a publication publish the majority
of the twenty pin levels, a tie as 0, one period later, across the wrap too. -/
def Obligations.OnePeriodPublishesTheMajority : Prop :=
  ∀ (s : State) (pins : List Bool) (rest : List Event), pins.length = 20 →
    s.inbox = pins.map Event.tick ++ rest → s.hw.timer.toNat ≤ 65520 →
    s.hw.timer.toNat % 20 = 0 → s.hw.vote = 0 →
    ∃ stamp : Timer, timerSub stamp s.hw.timer = 20 ∧
      Host.Core.run Sys2Proof.core 20 s = .next { s with
        inbox := rest
        hw := { timer := stamp, vote := 0,
                pub := some { stamp := stamp, level := decide (10 < pins.count true) } } }

/-- R94 and R95: the two reads of the sampling interface change no state of the machine. -/
def Obligations.SamplingReadsHaveNoSideEffect : Prop :=
  ∀ s : State, exec .latestSample s = .next { s with stage := .sample s.hw.pub } ∧
    exec .currentTimer s = .next { s with stage := .timer s.hw.timer }

/-! ### The correlator (R100 to R103) -/

/-- R100: the sample enters at age 0, every other age moves by one, `wcount` saturates at 200, and
nothing else changes. -/
def Obligations.HistShiftAgesEverySample : Prop :=
  ∀ (b : Bool) (s : State), ∃ t, exec (.histShift b) s = .next t ∧
    t.dec.w.getLsbD 0 = b ∧ (∀ k, 1 ≤ k → k < 200 → t.dec.w.getLsbD k = s.dec.w.getLsbD (k - 1)) ∧
    t.dec.wcount.toNat = min (s.dec.wcount.toNat + 1) 200 ∧
    t = { s with dec := { s.dec with w := t.dec.w, wcount := t.dec.wcount } }

/-- R101 and R103: the score is the number of ages with a quiet sample where the pattern is 1; it and
the active samples under the pattern make 160. While the window is not full there is none (R102;
entry 11 for the operation run by itself). -/
def Obligations.CorrScoreCountsQuietAges : Prop :=
  ∀ s : State, s.dec.wcount.toNat ≤ 200 → ∃ o, exec .corrScore s = .next { s with stage := .score o } ∧
    (s.dec.wcount.toNat < 200 → o = none) ∧
    (s.dec.wcount.toNat = 200 → ∃ n, o = some n ∧
      n = ((List.range 200).filter fun k => !s.dec.w.getLsbD k && decide (10 ≤ k % 50)).length ∧
      n + ((List.range 200).filter fun k => s.dec.w.getLsbD k && decide (10 ≤ k % 50)).length = 160)

/-! ### The phase detector (R110 to R114) -/

/-- R110 to R113: push, activation, threshold, peak and latch. -/
def Obligations.PhaseStepPushesThenDetects : Prop :=
  ∀ (score : Score) (s : State), s.dec.s.length ≤ 50 →
    ∃ t peak, exec (.phaseStep score) s = .next t ∧
      t = { s with
        dec := { s.dec with s := t.dec.s, prevHeight := t.dec.prevHeight, latch := t.dec.latch }
        stage := .peak peak } ∧
      (s.dec.s.length < 50 → t.dec.s = s.dec.s ++ [score]) ∧
      (s.dec.s.length = 50 → t.dec.s = s.dec.s.tail ++ [score]) ∧
      (t.dec.s.length < 50 →
        peak = false ∧ t.dec.prevHeight = s.dec.prevHeight ∧ t.dec.latch = s.dec.latch) ∧
      (t.dec.s.length = 50 →
        t.dec.prevHeight.toNat = score.toNat - ((t.dec.s.map BitVec.toNat).sum / 50 + 5) ∧
        (peak = true ↔ t.dec.prevHeight.toNat < s.dec.prevHeight.toNat ∧ s.dec.latch = false) ∧
        t.dec.latch = (decide (t.dec.prevHeight ≠ 0#8) && (s.dec.latch || peak)))

/-- R114 (b): a constant score stream never gives a peak. -/
def Obligations.ConstantScoresNeverPeak : Prop :=
  ∀ (c : Score) (n : Nat) (s : State), (∀ x ∈ s.dec.s, x = c) → s.dec.prevHeight = 0#8 →
    ∃ t, execAll (List.replicate (n + 1) (.phaseStep c)) s = .next t ∧
      t.stage = .peak false ∧ t.dec.prevHeight = 0#8 ∧ (∀ x ∈ t.dec.s, x = c)

/-- R114 (a): over a run of scores in which the height is 0 at most at the end, at most one peak is
signalled, whatever the state it starts from. -/
def Obligations.AtMostOnePeakUntilHeightReturnsToZero : Prop :=
  ∀ (d : DecState) (scores : List Score) (initial : List (Bool × BitVec 8)) (last : Bool × BitVec 8),
    peakTrace d scores = initial ++ [last] → (∀ p ∈ initial, p.2 ≠ 0#8) →
    (peakTrace d scores).countP (fun p => p.1) ≤ 1

/-! ### The bit classifier (R120 to R124) -/

/-- R122: the symbol of every count. Nothing is said of the information word of a count that does not fit
its 16 bits (entry 23). -/
def Obligations.ClassifyFollowsTheBands : Prop :=
  ∀ c : Nat, (c ≤ 2 → classify c = .ok .minuteEnd) ∧ (3 ≤ c → c ≤ 6 → classify c = .ok .low) ∧
    (7 ≤ c → c ≤ 10 → classify c = .ok .high) ∧
    (11 ≤ c → ∃ e : DecErr, classify c = .error e ∧ e.kind = .badBit ∧ e.kind.code.toNat = 4 ∧
      (c < 65536 → e.info.toNat = c))

/-- R120 to R123: the spacing check with both bounds inclusive and its two errors, and the symbol of
ages 1 to 10 when it passes or when there is no previous peak. -/
def Obligations.BitClassifyChecksSpacingThenCounts : Prop :=
  ∀ (stamp : Timer) (s : State),
    (∀ p, s.dec.lastPeak = some p → stamp.toNat ≤ 65520 → p.toNat ≤ 65520 → timerSub stamp p < 900 →
      ∃ e : DecErr, e.kind = .lastPeakTooClose ∧ e.kind.code.toNat = 2 ∧
        (e.info.toNat : Int) = timerSub stamp p ∧
        exec (.bitClassify stamp) s = .next (s.raise e)) ∧
    (∀ p, s.dec.lastPeak = some p → stamp.toNat ≤ 65520 → p.toNat ≤ 65520 → 1100 < timerSub stamp p →
      ∃ e : DecErr, e.kind = .lastPeakTooFar ∧ e.kind.code.toNat = 3 ∧
        (e.info.toNat : Int) = timerSub stamp p ∧
        exec (.bitClassify stamp) s = .next (s.raise e)) ∧
    ((∀ p, s.dec.lastPeak = some p → 900 ≤ timerSub stamp p ∧ timerSub stamp p ≤ 1100) →
      ∃ count : Nat, count = ((List.range 10).filter fun k => s.dec.w.getLsbD (k + 1)).length ∧
        exec (.bitClassify stamp) s = .next { s with
          dec := { s.dec with lastPeak := some stamp }
          stage := .symbol (if count ≤ 2 then .minuteEnd else if count ≤ 6 then .low else .high) })

/-- R124: no step of the machine raises BadBit: what `lasterr` holds of that kind it held before. -/
def Obligations.BadBitIsNeverRaised : Prop :=
  ∀ (s t : State) (e : DecErr), step s = .next t → t.clk.lasterr = some e → e.kind = .badBit →
    s.clk.lasterr = some e

/-! ### The frame assembler (R130 to R135) -/

/-- R130 and R131: the buffer after a push begins with the first MinuteEnd of what was pushed, or is
empty when there is none; nothing else changes. -/
def Obligations.FramePushReanchors : Prop :=
  ∀ (sym : Symbol) (s : State), ∃ t, exec (.framePush sym) s = .next t ∧
    t = { s with dec := { s.dec with fb := t.dec.fb } } ∧
    (s.dec.fb.length ≤ 59 → Symbol.minuteEnd ∈ s.dec.fb ++ [sym] →
      ∃ dropped, s.dec.fb ++ [sym] = dropped ++ t.dec.fb ∧ Symbol.minuteEnd ∉ dropped ∧
        t.dec.fb.head? = some .minuteEnd) ∧
    (s.dec.fb.length ≤ 59 → Symbol.minuteEnd ∉ s.dec.fb ++ [sym] → t.dec.fb = [])

/-- R132, R133, R135: a frame is taken only from a MinuteEnd followed by 59 symbols; a MinuteEnd among
them aborts, everything up to it consumed; otherwise nothing changes. -/
def Obligations.FrameExtractTakesAbortsOrWaits : Prop :=
  ∀ s : State,
    (∀ bits : List Symbol, s.dec.fb = .minuteEnd :: bits → bits.length = 59 →
      Symbol.minuteEnd ∉ bits →
      ∃ fr : Frame, (∀ i, i < 59 → (fr.getLsbD i = true ↔ bits[i]? = some .high)) ∧
        exec .frameExtract s = .next { s with
          dec := { s.dec with fb := [] }, stage := .frame (some fr) false }) ∧
    (∀ before after : List Symbol, s.dec.fb = .minuteEnd :: (before ++ .minuteEnd :: after) →
      s.dec.fb.length = 60 → Symbol.minuteEnd ∉ before →
      exec .frameExtract s = .next { s with
        dec := { s.dec with fb := after }, stage := .frame none true }) ∧
    (s.dec.fb.length ≠ 60 ∨ s.dec.fb.head? ≠ some .minuteEnd →
      exec .frameExtract s = .next { s with stage := .frame none false })

/-- R134 and R32 (d) over one UPDATE: the buffer stays below 60; without a symbol it is unchanged or
cleared; with a symbol and no abort it is empty or begins with MinuteEnd. -/
def Obligations.UpdateKeepsTheBufferAnchored : Prop :=
  ∀ s : State, s.dec.fb.length ≤ 59 → ∃ t, exec .update s = .next t ∧ t.dec.fb.length ≤ 59 ∧
    (t.out.rspData.getLsbD 3 = false → t.dec.fb = s.dec.fb ∨ t.dec.fb = []) ∧
    (t.out.rspData.getLsbD 3 = true → t.out.rspData.getLsbD 11 = false →
      t.dec.fb = [] ∨ t.dec.fb.head? = some .minuteEnd)

/-! ### The protocol decoder (R140 to R157) -/

/-- R156: a Datetime encoded into a frame decodes to itself, its second unset. -/
def Obligations.FrameRoundTrip : Prop :=
  ∀ (dt : Datetime) (cest : Bool) (filler : BitVec 17) (s : State), dt.wf = true →
    dt.time.second = none →
    exec (.protoDecode (encodeFrame dt cest filler)) s = .next { s with stage := .decoded dt }

/-- R157: one flipped bit inside a parity group of a valid frame gives that group's parity error. That
PROTO.DECODE run by itself then performs the resync is the model's, DEDUCED from R8 and R176
(entry 10). -/
def Obligations.SingleFlipGivesTheGroupsParityError : Prop :=
  ∀ (fr : Frame) (dt : Datetime) (i : Nat) (s : State), protoDecode fr = .ok dt →
    (21 ≤ i → i ≤ 28 → exec (.protoDecode (flipBit fr i)) s
      = .next (s.raise { kind := .minuteParity, info := 0#16 })) ∧
    (29 ≤ i → i ≤ 35 → exec (.protoDecode (flipBit fr i)) s
      = .next (s.raise { kind := .hourParity, info := 0#16 })) ∧
    (36 ≤ i → i ≤ 58 → exec (.protoDecode (flipBit fr i)) s
      = .next (s.raise { kind := .dateParity, info := 0#16 }))

/-- R154: frame bits 1 to 16 and 19 take part in no check and no value. -/
def Obligations.UnreadFrameBitsAreIgnored : Prop :=
  ∀ (fr fr' : Frame) (s : State),
    (∀ i, i < 59 → ¬ (1 ≤ i ∧ i ≤ 16) → i ≠ 19 → fr.getLsbD i = fr'.getLsbD i) →
    exec (.protoDecode fr) s = exec (.protoDecode fr') s

/-- R141 to R146: the six structural checks, the first that fails raising its error with its code. That
PROTO.DECODE run by itself then performs the resync is the model's, DEDUCED from R8 and R176
(entry 10). -/
def Obligations.ProtoStructureChecksInOrder : Prop :=
  ∀ (fr : Frame) (s : State),
    let raises := fun (kind : ErrKind) (code : Nat) (info : BitVec 16) => kind.code.toNat = code ∧
      exec (.protoDecode fr) s = .next (s.raise { kind := kind, info := info })
    let startsOk := fr.getLsbD 20 = true ∧ fr.getLsbD 0 = false
    let flagsOk := startsOk ∧ fr.getLsbD 17 ≠ fr.getLsbD 18
    let minuteOk := flagsOk ∧ oddOnes (fr.extractLsb' 21 8) = false
    let hourOk := minuteOk ∧ oddOnes (fr.extractLsb' 29 7) = false
    (fr.getLsbD 20 = false → raises .badStartOfTime 5 0#16) ∧
    (fr.getLsbD 20 = true → fr.getLsbD 0 = true → raises .badStartOfMinute 6 0#16) ∧
    (startsOk → fr.getLsbD 17 = false → fr.getLsbD 18 = false → raises .summerTime 7 0#16) ∧
    (startsOk → fr.getLsbD 17 = true → fr.getLsbD 18 = true → raises .summerTime 7 3#16) ∧
    (flagsOk → oddOnes (fr.extractLsb' 21 8) = true → raises .minuteParity 8 0#16) ∧
    (minuteOk → oddOnes (fr.extractLsb' 29 7) = true → raises .hourParity 9 0#16) ∧
    (hourOk → oddOnes (fr.extractLsb' 36 23) = true → raises .dateParity 10 0#16)

/-- R147 to R153: with the structure in order, the six ranges in frame order, each carrying the value,
and the Datetime when all pass. That PROTO.DECODE run by itself performs the resync on an error is the
model's, DEDUCED from R8 and R176 (entry 10). -/
def Obligations.ProtoRangeChecksThenDatetime : Prop :=
  ∀ (fr : Frame) (s : State), fr.getLsbD 20 = true → fr.getLsbD 0 = false →
    fr.getLsbD 17 ≠ fr.getLsbD 18 → oddOnes (fr.extractLsb' 21 8) = false →
    oddOnes (fr.extractLsb' 29 7) = false → oddOnes (fr.extractLsb' 36 23) = false →
    ∀ minute hour day weekday month year : Nat,
    minute = bitNat fr 21 + 2 * bitNat fr 22 + 4 * bitNat fr 23 + 8 * bitNat fr 24
      + 10 * bitNat fr 25 + 20 * bitNat fr 26 + 40 * bitNat fr 27 →
    hour = bitNat fr 29 + 2 * bitNat fr 30 + 4 * bitNat fr 31 + 8 * bitNat fr 32
      + 10 * bitNat fr 33 + 20 * bitNat fr 34 →
    day = bitNat fr 36 + 2 * bitNat fr 37 + 4 * bitNat fr 38 + 8 * bitNat fr 39
      + 10 * bitNat fr 40 + 20 * bitNat fr 41 →
    weekday = bitNat fr 42 + 2 * bitNat fr 43 + 4 * bitNat fr 44 →
    month = bitNat fr 45 + 2 * bitNat fr 46 + 4 * bitNat fr 47 + 8 * bitNat fr 48
      + 10 * bitNat fr 49 →
    year = bitNat fr 50 + 2 * bitNat fr 51 + 4 * bitNat fr 52 + 8 * bitNat fr 53
      + 10 * bitNat fr 54 + 20 * bitNat fr 55 + 40 * bitNat fr 56 + 80 * bitNat fr 57 →
    let raises := fun (kind : ErrKind) (code value : Nat) => kind.code.toNat = code ∧
      ∃ info : BitVec 16, info.toNat = value ∧
        exec (.protoDecode fr) s = .next (s.raise { kind := kind, info := info })
    let timeOk := minute ≤ 59 ∧ hour ≤ 23
    let dayOk := timeOk ∧ 1 ≤ day ∧ day ≤ 31
    let monthOk := dayOk ∧ 1 ≤ weekday ∧ 1 ≤ month ∧ month ≤ 12
    (59 < minute → raises .minuteRange 11 minute) ∧
    (minute ≤ 59 → 23 < hour → raises .hourRange 12 hour) ∧
    (timeOk → day < 1 ∨ 31 < day → raises .dayRange 13 day) ∧
    (dayOk → weekday < 1 → raises .weekdayRange 14 weekday) ∧
    (dayOk → 1 ≤ weekday → month < 1 ∨ 12 < month → raises .monthRange 15 month) ∧
    (monthOk → 99 < year → raises .yearRange 16 year) ∧
    (monthOk → year ≤ 99 → ∃ dt, exec (.protoDecode fr) s = .next { s with stage := .decoded dt } ∧
      dt.time.minute.toNat = minute ∧ dt.time.hour.toNat = hour ∧ dt.time.second = none ∧
      dt.date.day.toNat = day ∧ dt.date.weekday.toNat = weekday ∧ dt.date.month.toNat = month ∧
      dt.date.year.toNat = year)

/-! ### Orchestration (R170 to R178) -/

/-- R171: an absent or stale sample is a no-op, whatever its level. -/
def Obligations.PollIgnoresAbsentAndStaleSamples : Prop :=
  ∀ s : State, exec (.decPoll none) s = .next { s with stage := .poll Poll.none } ∧
    ∀ p : Sample, s.dec.lastSmp = some p.stamp →
      exec (.decPoll (some p)) s = .next { s with stage := .poll Poll.none }

/-- R172 and R173: a smaller difference is ignored, a larger one raises MissedPolledValue with the
sample not fed, one period or no previous sample is accepted and remembered, unless a later stage
raises an error. -/
def Obligations.PollChecksThePeriod : Prop :=
  ∀ (p : Sample) (s : State), p.stamp.toNat ≤ 65520 → (∀ l, s.dec.lastSmp = some l → l.toNat ≤ 65520) →
    (∀ l, s.dec.lastSmp = some l → p.stamp ≠ l → timerSub p.stamp l < 20 →
      exec (.decPoll (some p)) s = .next { s with stage := .poll Poll.none }) ∧
    (∀ l, s.dec.lastSmp = some l → 20 < timerSub p.stamp l →
      ∃ e : DecErr, e.kind = .missedPolledValue ∧ e.kind.code.toNat = 1 ∧
        (e.info.toNat : Int) = timerSub p.stamp l ∧
        exec (.decPoll (some p)) s = .next { s.resync e with
          stage := .poll { Poll.none with outcome := .error e } }) ∧
    ((∀ l, s.dec.lastSmp = some l → timerSub p.stamp l = 20 ∧ p.stamp ≠ l) →
      ∃ t r, exec (.decPoll (some p)) s = .next t ∧ t.stage = .poll r ∧ r.accepted = true ∧
        (r.outcome.isError = false → t.dec.lastSmp = some p.stamp ∧
          t.dec.wcount.toNat = min (s.dec.wcount.toNat + 1) 200))

/-- R170 and R174: the Decoder's part of an UPDATE is its stages in their order: an accepted sample leaves
the state as the stages run one by one leave it, ends as they end, and its record holds what they handed
on: the score of CORR.SCORE, the peak of PHASE.STEP, the symbol of BIT.CLASSIFY with its count, the frame
and the abort of FRAME.EXTRACT, each absent when its stage did not run or raised. The record that DEC.POLL
hands on is the one UPDATE takes, for every sample. That a stage can be run by itself, handing on its
result, and performs the resync when it raises, is the model's (entries 9, 10). -/
def Obligations.PollRunsTheStagesInOrder : Prop :=
  (∀ (s : State) (smp : Option Sample), exec (.decPoll smp) s
    = .next { (s.decPoll smp).2 with stage := .poll (s.decPoll smp).1 }) ∧
  ∀ (s : State) (p : Sample),
    (∀ l, s.dec.lastSmp = some l → p.stamp ≠ l ∧ timerSub p.stamp l = 20) →
    ∃ t u r handed, exec (.decPoll (some p)) s = .next t ∧ stagewise s p = (handed, .next u) ∧
      t = { u with stage := .poll r } ∧
      u = { s with dec := u.dec, clk := { s.clk with lasterr := u.clk.lasterr }, stage := u.stage } ∧
      r.accepted = true ∧
      (∀ n, r.score = some n ↔ StageOut.score (some n) ∈ handed) ∧
      (r.peak = true ↔ StageOut.peak true ∈ handed) ∧
      (∀ sym, r.symbol = some sym ↔ StageOut.symbol sym ∈ handed) ∧
      (∀ c, r.count = some c ↔ r.symbol.isSome = true ∧
        c = ((List.range 10).filter fun k => (s.dec.histShift p.level).w.getLsbD (k + 1)).length) ∧
      (∀ fr, r.frame = some fr ↔ ∃ aborted, StageOut.frame (some fr) aborted ∈ handed) ∧
      (r.aborted = true ↔ ∃ fr, StageOut.frame fr true ∈ handed) ∧
      (∀ dt, r.outcome = .synced dt ↔ u.stage = .decoded dt) ∧
      (∀ e, r.outcome = .error e ↔ u.stage = .raised e)

/-- R176: what raising a decoder error does. -/
def Obligations.ResyncClearsTheDecoder : Prop :=
  ∀ (e : DecErr) (s : State), exec (.decResync e) s = .next { s with
    dec := { w := 0#200, wcount := 0#8, s := [], prevHeight := 0#8, latch := false, lastPeak := none,
             lastSmp := none, fb := [] }
    clk := { s.clk with lasterr := some e }
    stage := .raised e }

/-- R236 and R175 over one UPDATE: DERR means that the whole Decoder sub-state has its reset value and
`lasterr` holds the error this UPDATE's poll ended with; without it `lasterr` is unchanged. -/
def Obligations.DecoderErrorClearsEverything : Prop :=
  ∀ s : State, ∃ t, exec .update s = .next t ∧
    (t.out.rspData.getLsbD 6 = true →
      t.dec = State.reset.dec ∧ ∃ e, (s.decPoll s.hw.pub).1.outcome = .error e ∧
        t.clk.lasterr = some e ∧ 1 ≤ e.kind.code.toNat ∧ e.kind.code.toNat ≤ 16) ∧
    (t.out.rspData.getLsbD 6 = false → t.clk.lasterr = s.clk.lasterr)

/-- R102 and R111: from an empty Decoder, samples one period apart fill the window and then the score
ring, and no peak and no symbol comes before the 249th. -/
def Obligations.WindowThenRingFill : Prop :=
  ∀ (samples : List Sample) (s : State), s.dec = DecState.empty → Consecutive samples →
    samples.length ≤ 248 →
    ∃ t, execAll (samples.map fun p => .decPoll (some p)) s = .next t ∧
      t.dec.wcount.toNat = min samples.length 200 ∧ t.dec.s.length = samples.length - 199 ∧
      t.dec.prevHeight = 0#8 ∧ t.dec.latch = false ∧ t.dec.lastPeak = none ∧ t.dec.fb = [] ∧
      t.clk = s.clk

/-- R178: after an UPDATE that accepted a sample without an error, an UPDATE on the same published
pair does no decoder work. -/
def Obligations.SamePairIsFedOnce : Prop :=
  ∀ s t : State, exec .update s = .next t → t.out.rspData.getLsbD 0 = true →
    t.out.rspData.getLsbD 6 = false →
    ∃ u, exec .update t = .next u ∧ u.dec = t.dec ∧ u.clk.lastBit = t.clk.lastBit ∧
      u.clk.lasterr = t.clk.lasterr ∧ u.clk.lastRadioSync = t.clk.lastRadioSync ∧
      u.out.rspData &&& 0x9FF#32 = 0#32

/-! ### UPDATE and the time arbiter (R190 to R214) -/

/-- R190 to R194, R197, R212: what UPDATE leaves in every field, from the Decoder's record on the
published pair; the bits of the status word (step 6) are those of StatusWordSummarisesTheUpdate. -/
def Obligations.UpdateRunsItsSixSteps : Prop :=
  ∀ (s : State) (r : Poll) (s1 : State), s.decPoll s.hw.pub = (r, s1) →
    ∃ t, exec .update s = .next t ∧ t.dec = s1.dec ∧ t.clk.lasterr = s1.clk.lasterr ∧
      (∀ sym, r.symbol = some sym → t.clk.lastBit = some sym) ∧
      (r.symbol = none → t.clk.lastBit = s.clk.lastBit) ∧
      (∀ dt, r.outcome = .synced dt → dt.time.second = none ∧ t.clk.lastRadioSync = some dt ∧
        t.out.rtcWreq = true ∧ t.out.rtcWdata = packDatetime dt) ∧
      ((∀ dt, r.outcome ≠ .synced dt) → t.clk.lastRadioSync = s.clk.lastRadioSync ∧
        t.out.rtcWreq = false) ∧
      t.out.rtcWsecValid = false ∧ t.out.rtcRreq = true ∧ t.out.rspErr = false ∧
      t.clk.datetime = (if s.rtc.rok then unpackDatetime s.rtc.rdata else none) ∧
      (t.clk.datetime = none → t.clk.phase = s.clk.phase) ∧
      (∀ now, t.clk.datetime = some now → PhaseFollows s.clk now t.clk.phase) ∧
      t.out.rspData = statusWord
        (updateFlags r s.rtc.wack t.clk.datetime s.clk.phase t.clk.phase) ∧
      t.clk.dawnDuration = s.clk.dawnDuration ∧ t.clk.weekSunrise = s.clk.weekSunrise ∧
      t.clk.weekendSunrise = s.clk.weekendSunrise ∧ t.hw = s.hw ∧ t.rtc = s.rtc ∧
      t.inbox = s.inbox ∧ t.stage = s.stage

/-- R212: the twelve bits of the status word of an UPDATE, from the Decoder's record, the RTC's
acknowledgement, the time read and the phases before and after; the other bits are 0. An error leaves
the bits of the stages before it: DERR alone, or with those of the peak, or with those of the frame. -/
def Obligations.StatusWordSummarisesTheUpdate : Prop :=
  ∀ s : State, ∃ t, exec .update s = .next t ∧
    ∀ r : Poll, r = (s.decPoll s.hw.pub).1 →
      (t.out.rspData.getLsbD 0 = true ↔ r.accepted = true) ∧
      (t.out.rspData.getLsbD 1 = true ↔ ∃ n, r.score = some n) ∧
      (t.out.rspData.getLsbD 2 = true ↔ r.peak = true) ∧
      (t.out.rspData.getLsbD 3 = true ↔ ∃ sym, r.symbol = some sym) ∧
      (t.out.rspData.getLsbD 4 = true ↔ ∃ fr, r.frame = some fr) ∧
      (t.out.rspData.getLsbD 5 = true ↔ ∃ dt, r.outcome = .synced dt) ∧
      (t.out.rspData.getLsbD 6 = true ↔ ∃ e, r.outcome = .error e) ∧
      (t.out.rspData.getLsbD 7 = true ↔ ∃ dt, r.outcome = .synced dt) ∧
      (t.out.rspData.getLsbD 8 = true ↔ (∃ dt, r.outcome = .synced dt) ∧ s.rtc.wack = true) ∧
      (t.out.rspData.getLsbD 9 = true ↔ ∃ now, t.clk.datetime = some now) ∧
      (t.out.rspData.getLsbD 10 = true ↔ t.clk.phase ≠ s.clk.phase) ∧
      (t.out.rspData.getLsbD 11 = true ↔ r.aborted = true) ∧
      t.out.rspData.toNat < 4096 ∧
      (∀ e, r.outcome = .error e →
        (e.kind.code.toNat = 1 → t.out.rspData &&& 0x9FF#32 = 0x040#32) ∧
        (2 ≤ e.kind.code.toNat → e.kind.code.toNat ≤ 4 → t.out.rspData &&& 0x9FF#32 = 0x047#32) ∧
        (5 ≤ e.kind.code.toNat → t.out.rspData &&& 0x9FF#32 = 0x05F#32))

/-- R68: the implications between the status bits that always hold, and bits 31 to 12 zero. -/
def Obligations.StatusBitsImplyEachOther : Prop :=
  ∀ s : State, ∃ t, exec .update s = .next t ∧
    (∀ i, 12 ≤ i → t.out.rspData.getLsbD i = false) ∧
    (t.out.rspData.getLsbD 5 = true → t.out.rspData.getLsbD 4 = true) ∧
    (t.out.rspData.getLsbD 4 = true → t.out.rspData.getLsbD 3 = true) ∧
    (t.out.rspData.getLsbD 3 = true → t.out.rspData.getLsbD 2 = true) ∧
    (t.out.rspData.getLsbD 2 = true → t.out.rspData.getLsbD 1 = true) ∧
    (t.out.rspData.getLsbD 1 = true → t.out.rspData.getLsbD 0 = true) ∧
    (t.out.rspData.getLsbD 11 = true →
      t.out.rspData.getLsbD 3 = true ∧ t.out.rspData.getLsbD 4 = false) ∧
    (t.out.rspData.getLsbD 6 = true → t.out.rspData.getLsbD 5 = false) ∧
    (t.out.rspData.getLsbD 6 = true → t.out.rspData.getLsbD 0 = false →
      ∃ e, t.clk.lasterr = some e ∧ e.kind = .missedPolledValue) ∧
    t.out.rspData.getLsbD 7 = t.out.rspData.getLsbD 5 ∧
    t.out.rtcWreq = t.out.rspData.getLsbD 7 ∧
    (t.out.rspData.getLsbD 8 = true → t.out.rspData.getLsbD 7 = true) ∧
    (t.out.rspData.getLsbD 10 = true → t.out.rspData.getLsbD 9 = true)

/-- R193: no state depends on the RTC's acknowledgement; the response differs at most in RTCW_OK. -/
def Obligations.WriteAcknowledgementChangesNoState : Prop :=
  ∀ (s : State) (ack : Bool), ∃ t u, exec .update s = .next t ∧
    exec .update { s with rtc := { s.rtc with wack := ack } } = .next u ∧
    u.dec = t.dec ∧ u.clk = t.clk ∧ u.hw = t.hw ∧ u.out.rtcWreq = t.out.rtcWreq ∧
    u.out.rtcWdata = t.out.rtcWdata ∧ u.out.rtcRreq = t.out.rtcRreq ∧
    (u.out.rspData ^^^ t.out.rspData) &&& 0xFFFFFEFF#32 = 0#32

/-- R194 and R195: the RTC read overwrites `datetime` with the Datetime its payload denotes, or with
none when the read fails or the payload denotes none; nothing else of the state changes. -/
def Obligations.RtcReadTakesExactlyValidPayloads : Prop :=
  ∀ s : State, ∃ t, exec .rtcRead s = .next t ∧
    t = { s with clk := { s.clk with datetime := t.clk.datetime }, out := { s.out with rtcRreq := true } } ∧
    (s.rtc.rok = false → t.clk.datetime = none) ∧
    (s.rtc.rok = true → ∀ d, t.clk.datetime = some d ↔ PayloadDenotes s.rtc.rdata d)

/-- R196 and R76: the seven bytes of a write, byte 0 the second or 0x00 when it is absent. UPDATE never
writes a Datetime with a second (R192, R193): what RTC.WRITE run by itself does with one, byte 0 and
`rtc_wsec_valid = 1`, is the model's, DEDUCED from R30 and R76 (entry 21). -/
def Obligations.RtcWritePacksTheDatetime : Prop :=
  ∀ (dt : Datetime) (s : State), dt.wf = true →
    ∃ p : Payload, exec (.rtcWrite dt) s = .next { s with
        out := { s.out with rtcWreq := true, rtcWdata := p,
                            rtcWsecValid := dt.time.second.isSome }
        stage := .ack s.rtc.wack } ∧
      (∀ sec, dt.time.second = some sec → 10 * nibble p 1 + nibble p 0 = sec.toNat ∧ nibble p 0 ≤ 9) ∧
      (dt.time.second = none → nibble p 0 = 0 ∧ nibble p 1 = 0) ∧
      10 * nibble p 3 + nibble p 2 = dt.time.minute.toNat ∧ nibble p 2 ≤ 9 ∧
      10 * nibble p 5 + nibble p 4 = dt.time.hour.toNat ∧ nibble p 4 ≤ 9 ∧
      nibble p 6 = dt.date.weekday.toNat ∧ nibble p 7 = 0 ∧
      10 * nibble p 9 + nibble p 8 = dt.date.day.toNat ∧ nibble p 8 ≤ 9 ∧
      10 * nibble p 11 + nibble p 10 = dt.date.month.toNat ∧ nibble p 10 ≤ 9 ∧
      10 * nibble p 13 + nibble p 12 = dt.date.year.toNat ∧ nibble p 12 ≤ 9

/-- A Datetime with a second survives the trip through the RTC payload. -/
def Obligations.UnpackOfPackIsTheDatetime : Prop :=
  ∀ dt : Datetime, dt.wf = true → dt.time.second.isSome = true →
    unpackDatetime (packDatetime dt) = some dt

/-- R197 to R203: one evaluation of the phase. -/
def Obligations.PhaseEvalFollowsTheRules : Prop :=
  ∀ s : State, ∃ t, exec .phaseEval s = .next t ∧
    t = { s with clk := { s.clk with phase := t.clk.phase } } ∧
    (s.clk.datetime = none → t.clk.phase = s.clk.phase) ∧
    (∀ now, s.clk.datetime = some now → PhaseFollows s.clk now t.clk.phase)

/-- R213: the transition table of the whole phase machine. -/
def Obligations.PhaseTransitionTable : Prop :=
  ∀ s : State,
    (∃ t, exec .ack s = .next t ∧
      (∀ now, s.clk.datetime = some now → t.clk.phase = .default (some now.date.day)) ∧
      (s.clk.datetime = none → t.clk.phase = .default none)) ∧
    (∃ t, exec .update s = .next t ∧ (t.clk.datetime = none → t.clk.phase = s.clk.phase) ∧
      (∀ now, t.clk.datetime = some now → PhaseFollows s.clk now t.clk.phase)) ∧
    (∀ w rest, s.inbox = .host w :: rest → w ≠ 0x01000000#32 → w ≠ 0x02000000#32 →
      ∃ t, step s = .next t ∧ t.clk.phase = s.clk.phase) ∧
    (∀ rest, s.inbox = .rst :: rest → ∃ t, step s = .next t ∧ t.clk.phase = .default none)

/-- R198, R204, R269: after an ACK with the time known, the alarm is suppressed on every reading of
that day-of-month, as long as the phase is still the one ACK left. -/
def Obligations.AckSuppressesTheDay : Prop :=
  ∀ (s t u : State) (now later : Datetime), s.clk.datetime = some now → exec .ack s = .next t →
    u.clk.phase = t.clk.phase → u.rtc.rok = true → unpackDatetime u.rtc.rdata = some later →
    later.date.day = now.date.day →
    ∃ v, exec .update u = .next v ∧ v.clk.phase = t.clk.phase ∧ v.out.rspData.getLsbD 10 = false

/-- R204: ACK. -/
def Obligations.AckStoresTheDay : Prop :=
  decode 0x02000000#32 = .ok .ack ∧ ∀ s : State, ∃ p, exec .ack s = .next { s with
    clk := { s.clk with phase := .default (match s.clk.datetime with
      | some now => some now.date.day
      | none => none) }
    out := answer false 0#32 p }

/-- R205: SETDAWN. -/
def Obligations.SetdawnWritesTheDuration : Prop :=
  ∀ (v : Bool) (min : Minutes) (s : State), ∃ p, exec (.setdawn v min) s = .next { s with
    clk := { s.clk with dawnDuration := if v then some min else none }
    out := answer false 0#32 p }

/-- R206 and R207: SETWEEK and SETWKND write their own field, or are refused whole. -/
def Obligations.SetSunriseWritesOrRefuses : Prop :=
  ∀ (v : Bool) (hour : BitVec 5) (minute : BitVec 6) (s : State),
    let value : Option Time :=
      if v then some { hour := hour, minute := minute, second := none } else none
    (v = false ∨ (hour.toNat ≤ 23 ∧ minute.toNat ≤ 59) →
      (∃ p, exec (.setweek v hour minute) s
        = .next { s with clk := { s.clk with weekSunrise := value }, out := answer false 0#32 p }) ∧
      ∃ p, exec (.setwknd v hour minute) s
        = .next { s with clk := { s.clk with weekendSunrise := value }, out := answer false 0#32 p }) ∧
    (v = true → 23 < hour.toNat ∨ 59 < minute.toNat →
      (∃ p, exec (.setweek v hour minute) s = .next { s with out := answer true 0#32 p }) ∧
      ∃ p, exec (.setwknd v hour minute) s = .next { s with out := answer true 0#32 p })

/-- R211: NOP. -/
def Obligations.NopChangesNothing : Prop :=
  decode 0x00000000#32 = .ok .nop ∧ ∀ s : State,
    ∃ p, exec .nop s = .next { s with out := answer false 0#32 p }

/-! ### The registers (R71 to R74, R208 to R210) -/

/-- R71: the four Datetime registers. -/
def Obligations.DatetimeRegistersShowTheDatetimes : Prop :=
  ∀ s : State,
    let answers := fun (i : Instr) (w : Word) =>
      ∃ p, exec i s = .next { s with out := answer false w p }
    let shows := fun (dateRow timeRow : Instr) (o : Option Datetime) =>
      ∃ dw tw : Word, answers dateRow dw ∧ answers timeRow tw ∧
        (o = none → dw = 0#32 ∧ tw = 0#32) ∧
        (∀ dt, o = some dt →
          dw.toNat = 2 ^ 31 + dt.date.weekday.toNat * 2 ^ 24 + dt.date.year.toNat * 2 ^ 16
            + dt.date.month.toNat * 2 ^ 8 + dt.date.day.toNat ∧
          (dt.time.second = none →
            tw.toNat = 2 ^ 31 + dt.time.hour.toNat * 2 ^ 8 + dt.time.minute.toNat) ∧
          (∀ sec, dt.time.second = some sec →
            tw.toNat = 2 ^ 31 + 2 ^ 23 + sec.toNat * 2 ^ 16 + dt.time.hour.toNat * 2 ^ 8
              + dt.time.minute.toNat))
    shows .rdregCurDate .rdregCurTime s.clk.datetime ∧
    shows .rdregSyncDate .rdregSyncTime s.clk.lastRadioSync

/-- R72: the PHASE register. -/
def Obligations.PhaseRegisterShowsThePhase : Prop :=
  ∀ s : State, ∃ w : Word, (∃ p, exec .rdregPhase s = .next { s with out := answer false w p }) ∧
    (s.clk.phase = .default none → w = 0#32) ∧
    (∀ d, s.clk.phase = .default (some d) → w.toNat = d.toNat * 2 ^ 8 + 2 ^ 7) ∧
    (∀ e, s.clk.phase = .dawn e → w.toNat = e.toNat * 2 ^ 16 + 1) ∧
    (∀ e, s.clk.phase = .sunRise e → w.toNat = e.toNat * 2 ^ 16 + 2)

/-- R73: the diagnostic registers. -/
def Obligations.DiagnosticRegistersShowTheirFields : Prop :=
  ∀ s : State, s.dec.sfill ≤ 50 → s.dec.fbLen ≤ 60 →
    let answers := fun (i : Instr) (n : Nat) => ∃ (w : Word) (p : Payload), w.toNat = n ∧
      exec i s = .next { s with out := answer false w p }
    (s.clk.lastBit = none → answers .rdregLastbit 0) ∧
    (s.clk.lastBit = some .low → answers .rdregLastbit 4) ∧
    (s.clk.lastBit = some .high → answers .rdregLastbit 5) ∧
    (s.clk.lastBit = some .minuteEnd → answers .rdregLastbit 6) ∧
    (s.clk.lasterr = none → answers .rdregLasterr 0) ∧
    (∀ e, s.clk.lasterr = some e →
      answers .rdregLasterr (2 ^ 31 + e.kind.code.toNat * 2 ^ 24 + e.info.toNat)) ∧
    (quarters s.clk.datetime s.clk.lastRadioSync = none → answers .rdregQuarters 0) ∧
    (∀ q, quarters s.clk.datetime s.clk.lastRadioSync = some q →
      q ≤ 2184 ∧ answers .rdregQuarters (2 ^ 31 + q)) ∧
    answers .rdregDecstat (s.dec.prevHeight.toNat * 2 ^ 24 + (if s.dec.latch then 2 ^ 16 else 0)
      + s.dec.sfill * 2 ^ 8 + s.dec.wcount.toNat) ∧
    answers .rdregFbstat s.dec.fbLen ∧
    (s.dec.lastSmp = none → answers .rdregSmpstamp 0) ∧
    (∀ t, s.dec.lastSmp = some t → answers .rdregSmpstamp (2 ^ 16 + t.toNat)) ∧
    (s.dec.lastPeak = none → answers .rdregPeakstamp 0) ∧
    (∀ t, s.dec.lastPeak = some t → answers .rdregPeakstamp (2 ^ 16 + t.toNat))

/-- R74: the configuration registers. -/
def Obligations.ConfigurationRegistersShowTheirFields : Prop :=
  ∀ s : State,
    let answers := fun (i : Instr) (n : Nat) => ∃ (w : Word) (p : Payload), w.toNat = n ∧
      exec i s = .next { s with out := answer false w p }
    (s.clk.dawnDuration = none → answers .rdregDawn 0) ∧
    (∀ m, s.clk.dawnDuration = some m → answers .rdregDawn (2 ^ 16 + m.toNat)) ∧
    (s.clk.weekSunrise = none → answers .rdregWeek 0) ∧
    (∀ t, s.clk.weekSunrise = some t →
      answers .rdregWeek (2 ^ 16 + t.hour.toNat * 2 ^ 8 + t.minute.toNat)) ∧
    (s.clk.weekendSunrise = none → answers .rdregWknd 0) ∧
    (∀ t, s.clk.weekendSunrise = some t →
      answers .rdregWknd (2 ^ 16 + t.hour.toNat * 2 ^ 8 + t.minute.toNat))

/-- R74: what a SET command wrote reads back as the low 17 bits of its word, and as 0 with `V = 0`. -/
def Obligations.ConfigurationReadsBack : Prop :=
  ∀ (s : State) (w : Word) (rest : List Event), ¬ IllegalWord w →
    ∀ read : Word, (w.extractLsb' 24 8 = 0x10#8 ∧ read = 0x20000008#32) ∨
      (w.extractLsb' 24 8 = 0x11#8 ∧ read = 0x20000009#32) ∨
      (w.extractLsb' 24 8 = 0x12#8 ∧ read = 0x2000000A#32) →
    s.inbox = .host w :: .host read :: rest →
    ∃ t, Host.Core.run Sys2Proof.core 2 s = .next t ∧ t.out.rspErr = false ∧
      t.out.rspData = if w.getLsbD 16 then w &&& 0x1FFFF#32 else 0#32

/-- R209 and R210: the quarters accessor on Datetimes in range, with the day number written out. -/
def Obligations.QuartersSinceLastSync : Prop :=
  ∀ s : State,
    let answers := fun (n : Nat) => ∃ (w : Word) (p : Payload), w.toNat = n ∧
      exec .rdregQuarters s = .next { s with out := answer false w p }
    (s.clk.datetime = none ∨ s.clk.lastRadioSync = none → answers 0) ∧
    (∀ a b cumA cumB, s.clk.datetime = some a → s.clk.lastRadioSync = some b →
      [0, 31, 59, 90, 120, 151, 181, 212, 243, 273, 304, 334][a.date.month.toNat - 1]? = some cumA →
      [0, 31, 59, 90, 120, 151, 181, 212, 243, 273, 304, 334][b.date.month.toNat - 1]? = some cumB →
      a.wf = true → b.wf = true →
      ∀ dayA dayB diff : Int,
      dayA = 365 * a.date.year.toNat + (a.date.year.toNat + 3 : Nat) / 4 + (cumA : Nat)
        + (if 2 < a.date.month.toNat ∧ a.date.year.toNat % 4 = 0 then 1 else 0)
        + (a.date.day.toNat - 1) →
      dayB = 365 * b.date.year.toNat + (b.date.year.toNat + 3 : Nat) / 4 + (cumB : Nat)
        + (if 2 < b.date.month.toNat ∧ b.date.year.toNat % 4 = 0 then 1 else 0)
        + (b.date.day.toNat - 1) →
      diff = (dayA - dayB) * 1440 + (a.time.hour.toNat * 60 + a.time.minute.toNat)
        - (b.time.hour.toNat * 60 + b.time.minute.toNat) →
      (diff < -32768 ∨ 32767 < diff → answers 0) ∧
      (-32768 ≤ diff → diff < 0 → answers (2 ^ 31)) ∧
      (0 ≤ diff → diff ≤ 32767 → answers (2 ^ 31 + diff.toNat / 15)))

/-! ### Reset, invariants and whole-machine rules -/

/-- R31 and R261: the values after reset, the outputs that R31 says are 0, and every register reads 0. -/
def Obligations.ResetValues : Prop :=
  State.reset.dec = { w := 0#200, wcount := 0#8, s := [], prevHeight := 0#8, latch := false,
                      lastPeak := none, lastSmp := none, fb := [] } ∧
  State.reset.clk = { datetime := none, lastRadioSync := none, lastBit := none, lasterr := none,
                      phase := .default none, dawnDuration := none, weekSunrise := none,
                      weekendSunrise := none } ∧
  State.reset.hw = { timer := 0#16, vote := 0, pub := none } ∧
  (State.reset.out.rspErr = false ∧ State.reset.out.rspData = 0#32 ∧
    State.reset.out.rtcWreq = false ∧ State.reset.out.rtcWdata = 0#56 ∧
    State.reset.out.rtcRreq = false) ∧
  ∀ r : Reg, State.reset.regRead r = 0#32

/-- R260: the reset of the CORE, from every state. That the HardwareClock, the RTC's ports and the events to
come stay as they are is the model's, DEDUCED from R29 and R261 (entry 7), and so is the 0 of
`rtc_wsec_valid` (R30; entry 6). -/
def Obligations.ResetClearsTheCore : Prop :=
  ∀ s : State, ∃ handedOn, exec .reset s = .next { s with
    dec := { w := 0#200, wcount := 0#8, s := [], prevHeight := 0#8, latch := false, lastPeak := none,
             lastSmp := none, fb := [] }
    clk := { datetime := none, lastRadioSync := none, lastBit := none, lasterr := none,
             phase := .default none, dawnDuration := none, weekSunrise := none,
             weekendSunrise := none }
    out := answer false 0#32 0#56
    stage := handedOn }

/-- R32 and R215: every step keeps the invariant, from every state that has it. -/
def Obligations.StepKeepsTheInvariant : Prop :=
  ∀ s t : State, s.Inv → step s = .next t → t.Inv

/-- The state after reset has the invariant. -/
def Obligations.ResetHasTheInvariant : Prop := State.reset.Inv

/-- R246: the transition function is total: every step and every operation, on every state, has a
next state. -/
def Obligations.NothingIsFatal : Prop :=
  (∀ s : State, ∃ t, step s = .next t) ∧ ∀ (i : Instr) (s : State), ∃ t, exec i s = .next t

/-- R240: who writes what. The Decoder sub-state, `datetime`, `last_radio_sync`, `last_bit` and
`lasterr` are written by UPDATE only, `phase` by UPDATE and ACK, each configuration field by its own
SET command, the Timer, the vote and the published pair by the tick agent, the pair also by a source
that drives the port (R244), the RTC's ports by the RTC; a reset of each block apart. The model's
choices: that one event is consumed (entry 1), that the outputs hold between commands (entry 6), and
that no event but `rst` writes the model's field `stage` (entry 9). -/
def Obligations.EveryFieldHasItsWriters : Prop :=
  ∀ (s t : State) (e : Event) (rest : List Event), s.inbox = e :: rest → step s = .next t →
    e ≠ .rst →
    (e ≠ .host 0x01000000#32 → t.dec = s.dec ∧ t.clk.datetime = s.clk.datetime ∧
      t.clk.lastRadioSync = s.clk.lastRadioSync ∧ t.clk.lastBit = s.clk.lastBit ∧
      t.clk.lasterr = s.clk.lasterr) ∧
    (e ≠ .host 0x01000000#32 → e ≠ .host 0x02000000#32 → t.clk.phase = s.clk.phase) ∧
    ((∀ w : Word, e = .host w → w.extractLsb' 24 8 ≠ 0x10#8) →
      t.clk.dawnDuration = s.clk.dawnDuration) ∧
    ((∀ w : Word, e = .host w → w.extractLsb' 24 8 ≠ 0x11#8) →
      t.clk.weekSunrise = s.clk.weekSunrise) ∧
    ((∀ w : Word, e = .host w → w.extractLsb' 24 8 ≠ 0x12#8) →
      t.clk.weekendSunrise = s.clk.weekendSunrise) ∧
    ((∀ pin, e ≠ .tick pin) → e ≠ .rstClock →
      t.hw.timer = s.hw.timer ∧ t.hw.vote = s.hw.vote ∧
        ((∀ p, e ≠ .smp p) → t.hw.pub = s.hw.pub)) ∧
    ((∀ a, e ≠ .rtc a) → t.rtc = s.rtc) ∧ ((∀ w, e ≠ .host w) → t.out = s.out) ∧
    t.stage = s.stage ∧ t.inbox = rest

/-- Scenario C and R114 (b), whatever else happens: as long as every sample shown is quiet, no
commands, ticks, resets and RTC answers ever give a symbol or a radio sync. First the invariant, which
every step keeps from every state that has it; then what it says of a run from reset on a list of
events (entry 1). -/
def Obligations.QuietInputNeverSyncs : Prop :=
  (∀ s t : State, s.Quiet → step s = .next t → t.Quiet) ∧
  ∀ events : List Event, (∀ e ∈ events, Event.quiet e = true) →
    ∃ s, Host.Core.run Sys2Proof.core events.length { State.reset with inbox := events } = .next s ∧
      s.clk.lastRadioSync = none ∧ s.clk.lastBit = none ∧ s.dec.fb = [] ∧ s.dec.lastPeak = none
end

