-- ==== Sys2Proof/Laws/PerInstr.lean ====
section
/-! SUPPORT. What holds of every instruction as syntax, one lemma per constructor. -/

namespace Sys2Proof.Laws

/-- The mask and the match of an instruction's row in spec/opcode_table.json; an internal row has none
(R66). -/
def rowPattern : Instr → Option (Word × Word)
  | .nop => some (0xFFFFFFFF#32, 0x00000000#32)
  | .update => some (0xFFFFFFFF#32, 0x01000000#32)
  | .ack => some (0xFFFFFFFF#32, 0x02000000#32)
  | .setdawn _ _ => some (0xFFFEF000#32, 0x10000000#32)
  | .setweek _ _ _ => some (0xFFFEE0C0#32, 0x11000000#32)
  | .setwknd _ _ _ => some (0xFFFEE0C0#32, 0x12000000#32)
  | .rdreg _ => some (0xFFFFFF00#32, 0x20000000#32)
  | .rdregCurDate => some (0xFFFFFFFF#32, 0x20000000#32)
  | .rdregCurTime => some (0xFFFFFFFF#32, 0x20000001#32)
  | .rdregSyncDate => some (0xFFFFFFFF#32, 0x20000002#32)
  | .rdregSyncTime => some (0xFFFFFFFF#32, 0x20000003#32)
  | .rdregPhase => some (0xFFFFFFFF#32, 0x20000004#32)
  | .rdregLastbit => some (0xFFFFFFFF#32, 0x20000005#32)
  | .rdregQuarters => some (0xFFFFFFFF#32, 0x20000006#32)
  | .rdregLasterr => some (0xFFFFFFFF#32, 0x20000007#32)
  | .rdregDawn => some (0xFFFFFFFF#32, 0x20000008#32)
  | .rdregWeek => some (0xFFFFFFFF#32, 0x20000009#32)
  | .rdregWknd => some (0xFFFFFFFF#32, 0x2000000A#32)
  | .rdregDecstat => some (0xFFFFFFFF#32, 0x20000010#32)
  | .rdregFbstat => some (0xFFFFFFFF#32, 0x20000011#32)
  | .rdregSmpstamp => some (0xFFFFFFFF#32, 0x20000012#32)
  | .rdregPeakstamp => some (0xFFFFFFFF#32, 0x20000013#32)
  | .tick _ => none
  | .tsub _ _ => none
  | .latestSample => none
  | .currentTimer => none
  | .histShift _ => none
  | .corrScore => none
  | .phaseStep _ => none
  | .bitClassify _ => none
  | .framePush _ => none
  | .frameExtract => none
  | .protoDecode _ => none
  | .decPoll _ => none
  | .decResync _ => none
  | .rtcWrite _ => none
  | .rtcRead => none
  | .phaseEval => none
  | .reset => none

/-- An instruction has a command word exactly when its row has a pattern, and the word matches it
(R66). -/
def EncodedWordMatchesRow.Statement (i : Instr) : Prop :=
  match encode i, rowPattern i with
  | some w, some (mask, pattern) => w &&& mask = pattern
  | none, none => True
  | some _, none => False
  | none, some _ => False

theorem EncodedWordMatchesRow.nop :
    EncodedWordMatchesRow.Statement .nop := by
  show _ = _
  decide

theorem EncodedWordMatchesRow.update :
    EncodedWordMatchesRow.Statement .update := by
  show _ = _
  decide

theorem EncodedWordMatchesRow.ack :
    EncodedWordMatchesRow.Statement .ack := by
  show _ = _
  decide

theorem EncodedWordMatchesRow.setdawn (v : Bool) (min : Minutes) :
    EncodedWordMatchesRow.Statement (.setdawn v min) := by
  show wordC1 0x10#8 v min &&& 0xFFFEF000#32 = 0x10000000#32
  apply BitVec.eq_of_getLsbD_eq
  intro k hk
  simp only [wordC1, BitVec.getLsbD_and, BitVec.getLsbD_append, BitVec.getLsbD_ofBool]
  interval_cases k <;> simp

theorem EncodedWordMatchesRow.setweek (v : Bool) (hour : BitVec 5) (minute : BitVec 6) :
    EncodedWordMatchesRow.Statement (.setweek v hour minute) := by
  show wordC2 0x11#8 v hour minute &&& 0xFFFEE0C0#32 = 0x11000000#32
  apply BitVec.eq_of_getLsbD_eq
  intro k hk
  simp only [wordC2, BitVec.getLsbD_and, BitVec.getLsbD_append, BitVec.getLsbD_ofBool]
  interval_cases k <;> simp

theorem EncodedWordMatchesRow.setwknd (v : Bool) (hour : BitVec 5) (minute : BitVec 6) :
    EncodedWordMatchesRow.Statement (.setwknd v hour minute) := by
  show wordC2 0x12#8 v hour minute &&& 0xFFFEE0C0#32 = 0x12000000#32
  apply BitVec.eq_of_getLsbD_eq
  intro k hk
  simp only [wordC2, BitVec.getLsbD_and, BitVec.getLsbD_append, BitVec.getLsbD_ofBool]
  interval_cases k <;> simp

theorem EncodedWordMatchesRow.rdreg (reg : BitVec 8) :
    EncodedWordMatchesRow.Statement (.rdreg reg) := by
  show wordC3 0x20#8 reg &&& 0xFFFFFF00#32 = 0x20000000#32
  apply BitVec.eq_of_getLsbD_eq
  intro k hk
  simp only [wordC3, BitVec.getLsbD_and, BitVec.getLsbD_append]
  interval_cases k <;> simp

theorem EncodedWordMatchesRow.rdregCurDate :
    EncodedWordMatchesRow.Statement .rdregCurDate := by
  show _ = _
  decide

theorem EncodedWordMatchesRow.rdregCurTime :
    EncodedWordMatchesRow.Statement .rdregCurTime := by
  show _ = _
  decide

theorem EncodedWordMatchesRow.rdregSyncDate :
    EncodedWordMatchesRow.Statement .rdregSyncDate := by
  show _ = _
  decide

theorem EncodedWordMatchesRow.rdregSyncTime :
    EncodedWordMatchesRow.Statement .rdregSyncTime := by
  show _ = _
  decide

theorem EncodedWordMatchesRow.rdregPhase :
    EncodedWordMatchesRow.Statement .rdregPhase := by
  show _ = _
  decide

theorem EncodedWordMatchesRow.rdregLastbit :
    EncodedWordMatchesRow.Statement .rdregLastbit := by
  show _ = _
  decide

theorem EncodedWordMatchesRow.rdregQuarters :
    EncodedWordMatchesRow.Statement .rdregQuarters := by
  show _ = _
  decide

theorem EncodedWordMatchesRow.rdregLasterr :
    EncodedWordMatchesRow.Statement .rdregLasterr := by
  show _ = _
  decide

theorem EncodedWordMatchesRow.rdregDawn :
    EncodedWordMatchesRow.Statement .rdregDawn := by
  show _ = _
  decide

theorem EncodedWordMatchesRow.rdregWeek :
    EncodedWordMatchesRow.Statement .rdregWeek := by
  show _ = _
  decide

theorem EncodedWordMatchesRow.rdregWknd :
    EncodedWordMatchesRow.Statement .rdregWknd := by
  show _ = _
  decide

theorem EncodedWordMatchesRow.rdregDecstat :
    EncodedWordMatchesRow.Statement .rdregDecstat := by
  show _ = _
  decide

theorem EncodedWordMatchesRow.rdregFbstat :
    EncodedWordMatchesRow.Statement .rdregFbstat := by
  show _ = _
  decide

theorem EncodedWordMatchesRow.rdregSmpstamp :
    EncodedWordMatchesRow.Statement .rdregSmpstamp := by
  show _ = _
  decide

theorem EncodedWordMatchesRow.rdregPeakstamp :
    EncodedWordMatchesRow.Statement .rdregPeakstamp := by
  show _ = _
  decide

theorem EncodedWordMatchesRow.tick (pin : Bool) :
    EncodedWordMatchesRow.Statement (.tick pin) := by
  trivial

theorem EncodedWordMatchesRow.tsub (a b : Timer) :
    EncodedWordMatchesRow.Statement (.tsub a b) := by
  trivial

theorem EncodedWordMatchesRow.latestSample :
    EncodedWordMatchesRow.Statement .latestSample := by
  trivial

theorem EncodedWordMatchesRow.currentTimer :
    EncodedWordMatchesRow.Statement .currentTimer := by
  trivial

theorem EncodedWordMatchesRow.histShift (sample : Bool) :
    EncodedWordMatchesRow.Statement (.histShift sample) := by
  trivial

theorem EncodedWordMatchesRow.corrScore :
    EncodedWordMatchesRow.Statement .corrScore := by
  trivial

theorem EncodedWordMatchesRow.phaseStep (score : Score) :
    EncodedWordMatchesRow.Statement (.phaseStep score) := by
  trivial

theorem EncodedWordMatchesRow.bitClassify (stamp : Timer) :
    EncodedWordMatchesRow.Statement (.bitClassify stamp) := by
  trivial

theorem EncodedWordMatchesRow.framePush (sym : Symbol) :
    EncodedWordMatchesRow.Statement (.framePush sym) := by
  trivial

theorem EncodedWordMatchesRow.frameExtract :
    EncodedWordMatchesRow.Statement .frameExtract := by
  trivial

theorem EncodedWordMatchesRow.protoDecode (fr : Frame) :
    EncodedWordMatchesRow.Statement (.protoDecode fr) := by
  trivial

theorem EncodedWordMatchesRow.decPoll (smp : Option Sample) :
    EncodedWordMatchesRow.Statement (.decPoll smp) := by
  trivial

theorem EncodedWordMatchesRow.decResync (e : DecErr) :
    EncodedWordMatchesRow.Statement (.decResync e) := by
  trivial

theorem EncodedWordMatchesRow.rtcWrite (dt : Datetime) :
    EncodedWordMatchesRow.Statement (.rtcWrite dt) := by
  trivial

theorem EncodedWordMatchesRow.rtcRead :
    EncodedWordMatchesRow.Statement .rtcRead := by
  trivial

theorem EncodedWordMatchesRow.phaseEval :
    EncodedWordMatchesRow.Statement .phaseEval := by
  trivial

theorem EncodedWordMatchesRow.reset :
    EncodedWordMatchesRow.Statement .reset := by
  trivial

end Sys2Proof.Laws
end

