-- ==== Sys2Proof/Laws/State.lean ====
section
/-! SUPPORT. One lemma per field per update of State, each true by rfl (the small lemmas of the shared operations). -/

namespace Sys2Proof.Machine

/-! ### State.respond -/

@[simp] theorem State.respond_dec (s : State) (data : Word) : (s.respond data).dec = s.dec := rfl
@[simp] theorem State.respond_clk (s : State) (data : Word) : (s.respond data).clk = s.clk := rfl
@[simp] theorem State.respond_hw (s : State) (data : Word) : (s.respond data).hw = s.hw := rfl
@[simp] theorem State.respond_rtc (s : State) (data : Word) : (s.respond data).rtc = s.rtc := rfl
@[simp] theorem State.respond_out (s : State) (data : Word) :
    (s.respond data).out
      = { Outputs.idle with rspData := data } := rfl
@[simp] theorem State.respond_inbox (s : State) (data : Word) :
    (s.respond data).inbox
      = s.inbox := rfl
@[simp] theorem State.respond_stage (s : State) (data : Word) :
    (s.respond data).stage
      = s.stage := rfl

/-! ### State.refuse -/

@[simp] theorem State.refuse_dec (s : State) : s.refuse.dec = s.dec := rfl
@[simp] theorem State.refuse_clk (s : State) : s.refuse.clk = s.clk := rfl
@[simp] theorem State.refuse_hw (s : State) : s.refuse.hw = s.hw := rfl
@[simp] theorem State.refuse_rtc (s : State) : s.refuse.rtc = s.rtc := rfl
@[simp] theorem State.refuse_out (s : State) :
    s.refuse.out
      = { Outputs.idle with rspErr := true } := rfl
@[simp] theorem State.refuse_inbox (s : State) : s.refuse.inbox = s.inbox := rfl
@[simp] theorem State.refuse_stage (s : State) : s.refuse.stage = s.stage := rfl

/-! ### State.resync -/

@[simp] theorem State.resync_dec (s : State) (e : DecErr) : (s.resync e).dec = DecState.empty := rfl
@[simp] theorem State.resync_clk (s : State) (e : DecErr) :
    (s.resync e).clk
      = { s.clk with lasterr := some e } := rfl
@[simp] theorem State.resync_hw (s : State) (e : DecErr) : (s.resync e).hw = s.hw := rfl
@[simp] theorem State.resync_rtc (s : State) (e : DecErr) : (s.resync e).rtc = s.rtc := rfl
@[simp] theorem State.resync_out (s : State) (e : DecErr) : (s.resync e).out = s.out := rfl
@[simp] theorem State.resync_inbox (s : State) (e : DecErr) : (s.resync e).inbox = s.inbox := rfl
@[simp] theorem State.resync_stage (s : State) (e : DecErr) : (s.resync e).stage = s.stage := rfl

/-! ### State.raise -/

@[simp] theorem State.raise_dec (s : State) (e : DecErr) : (s.raise e).dec = DecState.empty := rfl
@[simp] theorem State.raise_clk (s : State) (e : DecErr) :
    (s.raise e).clk
      = { s.clk with lasterr := some e } := rfl
@[simp] theorem State.raise_hw (s : State) (e : DecErr) : (s.raise e).hw = s.hw := rfl
@[simp] theorem State.raise_rtc (s : State) (e : DecErr) : (s.raise e).rtc = s.rtc := rfl
@[simp] theorem State.raise_out (s : State) (e : DecErr) : (s.raise e).out = s.out := rfl
@[simp] theorem State.raise_inbox (s : State) (e : DecErr) : (s.raise e).inbox = s.inbox := rfl
@[simp] theorem State.raise_stage (s : State) (e : DecErr) : (s.raise e).stage = .raised e := rfl

/-! ### State.handOn -/

@[simp] theorem State.handOn_dec (s : State) (o : StageOut) : (s.handOn o).dec = s.dec := rfl
@[simp] theorem State.handOn_clk (s : State) (o : StageOut) : (s.handOn o).clk = s.clk := rfl
@[simp] theorem State.handOn_hw (s : State) (o : StageOut) : (s.handOn o).hw = s.hw := rfl
@[simp] theorem State.handOn_rtc (s : State) (o : StageOut) : (s.handOn o).rtc = s.rtc := rfl
@[simp] theorem State.handOn_out (s : State) (o : StageOut) : (s.handOn o).out = s.out := rfl
@[simp] theorem State.handOn_inbox (s : State) (o : StageOut) : (s.handOn o).inbox = s.inbox := rfl
@[simp] theorem State.handOn_stage (s : State) (o : StageOut) : (s.handOn o).stage = o := rfl

/-! ### State.setDec -/

@[simp] theorem State.setDec_dec (s : State) (d : DecState) : (s.setDec d).dec = d := rfl
@[simp] theorem State.setDec_clk (s : State) (d : DecState) : (s.setDec d).clk = s.clk := rfl
@[simp] theorem State.setDec_hw (s : State) (d : DecState) : (s.setDec d).hw = s.hw := rfl
@[simp] theorem State.setDec_rtc (s : State) (d : DecState) : (s.setDec d).rtc = s.rtc := rfl
@[simp] theorem State.setDec_out (s : State) (d : DecState) : (s.setDec d).out = s.out := rfl
@[simp] theorem State.setDec_inbox (s : State) (d : DecState) : (s.setDec d).inbox = s.inbox := rfl
@[simp] theorem State.setDec_stage (s : State) (d : DecState) : (s.setDec d).stage = s.stage := rfl

/-! ### State.setClk -/

@[simp] theorem State.setClk_dec (s : State) (c : ClockAgg) : (s.setClk c).dec = s.dec := rfl
@[simp] theorem State.setClk_clk (s : State) (c : ClockAgg) : (s.setClk c).clk = c := rfl
@[simp] theorem State.setClk_hw (s : State) (c : ClockAgg) : (s.setClk c).hw = s.hw := rfl
@[simp] theorem State.setClk_rtc (s : State) (c : ClockAgg) : (s.setClk c).rtc = s.rtc := rfl
@[simp] theorem State.setClk_out (s : State) (c : ClockAgg) : (s.setClk c).out = s.out := rfl
@[simp] theorem State.setClk_inbox (s : State) (c : ClockAgg) : (s.setClk c).inbox = s.inbox := rfl
@[simp] theorem State.setClk_stage (s : State) (c : ClockAgg) : (s.setClk c).stage = s.stage := rfl

/-! ### State.rtcWrite -/

@[simp] theorem State.rtcWrite_dec (s : State) (dt : Datetime) : (s.rtcWrite dt).dec = s.dec := rfl
@[simp] theorem State.rtcWrite_clk (s : State) (dt : Datetime) : (s.rtcWrite dt).clk = s.clk := rfl
@[simp] theorem State.rtcWrite_hw (s : State) (dt : Datetime) : (s.rtcWrite dt).hw = s.hw := rfl
@[simp] theorem State.rtcWrite_rtc (s : State) (dt : Datetime) : (s.rtcWrite dt).rtc = s.rtc := rfl
@[simp] theorem State.rtcWrite_out (s : State) (dt : Datetime) :
    (s.rtcWrite dt).out
      = { s.out with rtcWreq := true, rtcWdata := packDatetime dt, rtcWsecValid := dt.time.second.isSome } := rfl
@[simp] theorem State.rtcWrite_inbox (s : State) (dt : Datetime) :
    (s.rtcWrite dt).inbox
      = s.inbox := rfl
@[simp] theorem State.rtcWrite_stage (s : State) (dt : Datetime) :
    (s.rtcWrite dt).stage
      = s.stage := rfl

/-! ### State.rtcRead -/

@[simp] theorem State.rtcRead_dec (s : State) : s.rtcRead.dec = s.dec := rfl
@[simp] theorem State.rtcRead_clk (s : State) :
    s.rtcRead.clk
      = { s.clk with datetime := s.rtc.reading } := rfl
@[simp] theorem State.rtcRead_hw (s : State) : s.rtcRead.hw = s.hw := rfl
@[simp] theorem State.rtcRead_rtc (s : State) : s.rtcRead.rtc = s.rtc := rfl
@[simp] theorem State.rtcRead_out (s : State) :
    s.rtcRead.out
      = { s.out with rtcRreq := true } := rfl
@[simp] theorem State.rtcRead_inbox (s : State) : s.rtcRead.inbox = s.inbox := rfl
@[simp] theorem State.rtcRead_stage (s : State) : s.rtcRead.stage = s.stage := rfl

/-! ### State.issue -/

@[simp] theorem State.issue_dec (s : State) (cmd : Word) : (s.issue cmd).dec = s.dec := rfl
@[simp] theorem State.issue_clk (s : State) (cmd : Word) : (s.issue cmd).clk = s.clk := rfl
@[simp] theorem State.issue_hw (s : State) (cmd : Word) : (s.issue cmd).hw = s.hw := rfl
@[simp] theorem State.issue_rtc (s : State) (cmd : Word) : (s.issue cmd).rtc = s.rtc := rfl
@[simp] theorem State.issue_out (s : State) (cmd : Word) : (s.issue cmd).out = s.out := rfl
@[simp] theorem State.issue_inbox (s : State) (cmd : Word) :
    (s.issue cmd).inbox
      = .host cmd :: s.inbox := rfl
@[simp] theorem State.issue_stage (s : State) (cmd : Word) : (s.issue cmd).stage = s.stage := rfl

/-! ### DecState.histShift, DecState.framePush, DecState.detectPeak -/

@[simp] theorem DecState.histShift_s (d : DecState) (b : Bool) : (d.histShift b).s = d.s := rfl
@[simp] theorem DecState.histShift_prevHeight (d : DecState) (b : Bool) : (d.histShift b).prevHeight = d.prevHeight := rfl
@[simp] theorem DecState.histShift_latch (d : DecState) (b : Bool) : (d.histShift b).latch = d.latch := rfl
@[simp] theorem DecState.histShift_lastPeak (d : DecState) (b : Bool) : (d.histShift b).lastPeak = d.lastPeak := rfl
@[simp] theorem DecState.histShift_lastSmp (d : DecState) (b : Bool) : (d.histShift b).lastSmp = d.lastSmp := rfl
@[simp] theorem DecState.histShift_fb (d : DecState) (b : Bool) : (d.histShift b).fb = d.fb := rfl
@[simp] theorem DecState.framePush_w (d : DecState) (sym : Symbol) :
    (d.framePush sym).w = d.w := rfl
@[simp] theorem DecState.framePush_wcount (d : DecState) (sym : Symbol) :
    (d.framePush sym).wcount = d.wcount := rfl
@[simp] theorem DecState.framePush_s (d : DecState) (sym : Symbol) :
    (d.framePush sym).s = d.s := rfl
@[simp] theorem DecState.framePush_prevHeight (d : DecState) (sym : Symbol) :
    (d.framePush sym).prevHeight = d.prevHeight := rfl
@[simp] theorem DecState.framePush_latch (d : DecState) (sym : Symbol) :
    (d.framePush sym).latch = d.latch := rfl
@[simp] theorem DecState.framePush_lastPeak (d : DecState) (sym : Symbol) :
    (d.framePush sym).lastPeak = d.lastPeak := rfl
@[simp] theorem DecState.framePush_lastSmp (d : DecState) (sym : Symbol) :
    (d.framePush sym).lastSmp = d.lastSmp := rfl
@[simp] theorem DecState.framePush_fb (d : DecState) (sym : Symbol) :
    (d.framePush sym).fb = reanchor (appendSymbol d.fb sym) := rfl
@[simp] theorem DecState.detectPeak_w (d : DecState) (h : BitVec 8) :
    (d.detectPeak h).2.w = d.w := rfl
@[simp] theorem DecState.detectPeak_wcount (d : DecState) (h : BitVec 8) :
    (d.detectPeak h).2.wcount = d.wcount := rfl
@[simp] theorem DecState.detectPeak_s (d : DecState) (h : BitVec 8) :
    (d.detectPeak h).2.s = d.s := rfl
@[simp] theorem DecState.detectPeak_prevHeight (d : DecState) (h : BitVec 8) :
    (d.detectPeak h).2.prevHeight = h := rfl
@[simp] theorem DecState.detectPeak_lastPeak (d : DecState) (h : BitVec 8) :
    (d.detectPeak h).2.lastPeak = d.lastPeak := rfl
@[simp] theorem DecState.detectPeak_lastSmp (d : DecState) (h : BitVec 8) :
    (d.detectPeak h).2.lastSmp = d.lastSmp := rfl
@[simp] theorem DecState.detectPeak_fb (d : DecState) (h : BitVec 8) :
    (d.detectPeak h).2.fb = d.fb := rfl

end Sys2Proof.Machine
end

