-- ==== Sys2Proof/Laws/Stages.lean ====
section
/-! SUPPORT. What each stage of the Decoder can do, said once (R90 to R135). -/

namespace Sys2Proof.Machine

/-! ### Timer -/

theorem timerSub_of_le {a b : Timer} (h : b.toNat ≤ a.toNat) :
    timerSub a b = (a.toNat : Int) - b.toNat := by
  simp [timerSub, h]

theorem timerSub_of_lt {a b : Timer} (h : a.toNat < b.toNat) :
    timerSub a b = (a.toNat : Int) + 65520 - b.toNat := by
  simp [timerSub, Nat.not_le.mpr h]

theorem timerNext_toNat {t : Timer} (h : t.toNat ≤ 65520) :
    (timerNext t).toNat = if t.toNat = 65520 then 1 else t.toNat + 1 := by
  simp only [timerNext, BitVec.toNat_ofNat]
  split <;> split <;> omega

/-! ### Correlator -/

theorem DecState.histShift_wcount_toNat (d : DecState) (b : Bool) :
    (d.histShift b).wcount.toNat = min (d.wcount.toNat + 1) 200 := by
  simp only [DecState.histShift, BitVec.toNat_ofNat]
  omega

theorem DecState.windowFull_iff (d : DecState) : d.windowFull = true ↔ 200 ≤ d.wcount.toNat := by
  simp [DecState.windowFull]

/-! ### Phase detector -/

theorem pushScore_length (ring : List Score) (x : Score) :
    (pushScore ring x).length = min (ring.length + 1) 50 := by
  simp [pushScore]
  omega

theorem pushScore_of_lt {ring : List Score} (x : Score) (h : ring.length < 50) :
    pushScore ring x = ring ++ [x] := by
  have : ring.length + 1 - 50 = 0 := by omega
  simp [pushScore, this]

theorem pushScore_of_full {ring : List Score} (x : Score) (h : ring.length = 50) :
    pushScore ring x = ring.tail ++ [x] := by
  cases ring with
  | nil => simp at h
  | cons y rest =>
    have hr : rest.length = 49 := by simpa using h
    simp [pushScore, hr]

theorem mem_pushScore {ring : List Score} {x y : Score} (h : y ∈ pushScore ring x) :
    y ∈ ring ∨ y = x := by
  simpa using List.mem_of_mem_drop h

/-- PHASE.STEP with a ring that is not full after the push leaves the detector alone (R111). -/
theorem DecState.phaseStep_inactive {d : DecState} (x : Score) (h : (pushScore d.s x).length < 50) :
    d.phaseStep x = (false, false, { d with s := pushScore d.s x }) := by
  simp [DecState.phaseStep, h]

/-- PHASE.STEP with a full ring thresholds the score and decides the peak (R112, R113). -/
theorem DecState.phaseStep_active {d : DecState} (x : Score) (h : (pushScore d.s x).length = 50) :
    d.phaseStep x = (true,
      decide ((excessHeight (pushScore d.s x) x).toNat < d.prevHeight.toNat) && !d.latch,
      { d with
        s := pushScore d.s x
        latch := if excessHeight (pushScore d.s x) x = 0#8 then false else d.latch ||
          (decide ((excessHeight (pushScore d.s x) x).toNat < d.prevHeight.toNat) && !d.latch)
        prevHeight := excessHeight (pushScore d.s x) x }) := by
  simp [DecState.phaseStep, DecState.detectPeak, h]

/-- PHASE.STEP writes the score ring, the previous height and the latch only (R110, R113). -/
theorem DecState.phaseStep_frame (d : DecState) (x : Score) :
    (d.phaseStep x).2.2.w = d.w ∧ (d.phaseStep x).2.2.wcount = d.wcount ∧
    (d.phaseStep x).2.2.s = pushScore d.s x ∧ (d.phaseStep x).2.2.lastPeak = d.lastPeak ∧
    (d.phaseStep x).2.2.lastSmp = d.lastSmp ∧ (d.phaseStep x).2.2.fb = d.fb := by
  have hl := pushScore_length d.s x
  by_cases hf : (pushScore d.s x).length < 50
  · rw [DecState.phaseStep_inactive x hf]
    exact ⟨rfl, rfl, rfl, rfl, rfl, rfl⟩
  · rw [DecState.phaseStep_active x (by omega)]
    exact ⟨rfl, rfl, rfl, rfl, rfl, rfl⟩

theorem excessHeight_toNat (ring : List Score) (x : Score) :
    (excessHeight ring x).toNat = x.toNat - (ringAverage ring + 5) := by
  have := x.isLt
  simp only [excessHeight, BitVec.toNat_ofNat]
  omega

/-! ### Bit classifier -/

theorem activeCount_le (w : Window) : activeCount w ≤ 10 := by
  have := List.countP_le_length (p := fun k => w.getLsbD (Config.core1.bwOff + k))
    (l := List.range Config.core1.bwLen)
  simpa [activeCount] using this

/-- With a count of at most 10 the classifier answers a symbol (R124). -/
theorem classify_of_le {c : Nat} (h : c ≤ 10) :
    classify c = .ok (if c ≤ 2 then .minuteEnd else if c ≤ 6 then .low else .high) := by
  unfold classify
  split
  · rfl
  · split
    · rfl
    · rfl

/-- BIT.CLASSIFY raises the spacing error or answers a symbol and remembers the peak (R120 to R124). -/
theorem DecState.bitClassify_eq (d : DecState) (stamp : Timer) :
    d.bitClassify stamp = match spacingError d.lastPeak stamp with
      | some e => .error e
      | none => .ok (if activeCount d.w ≤ 2 then .minuteEnd else if activeCount d.w ≤ 6 then .low
          else .high, { d with lastPeak := some stamp }) := by
  unfold DecState.bitClassify
  cases spacingError d.lastPeak stamp with
  | some e => rfl
  | none => simp [classify_of_le (activeCount_le d.w)]

theorem spacingError_kind {lastPeak : Option Timer} {stamp : Timer} {e : DecErr}
    (h : spacingError lastPeak stamp = some e) :
    e.kind = .lastPeakTooClose ∨ e.kind = .lastPeakTooFar := by
  unfold spacingError at h
  repeat' split at h
  all_goals first | (injection h with h; subst h; simp) | cases h

/-! ### Frame assembler -/

theorem appendSymbol_of_lt {fb : List Symbol} (sym : Symbol) (h : fb.length < 60) :
    appendSymbol fb sym = fb ++ [sym] := by
  simp [appendSymbol, h]

theorem appendSymbol_length_le (fb : List Symbol) (sym : Symbol) :
    (appendSymbol fb sym).length ≤ 60 := by
  unfold appendSymbol
  split
  · simp_all
  · simp

/-- The re-anchored buffer is empty or begins with MinuteEnd (R131). -/
theorem reanchor_anchored (fb : List Symbol) :
    reanchor fb = [] ∨ (reanchor fb).head? = some .minuteEnd := by
  induction fb with
  | nil => simp [reanchor]
  | cons x rest ih =>
    unfold reanchor at *
    by_cases hx : x = .minuteEnd
    · simp [hx]
    · simpa [hx] using ih

/-- What re-anchoring drops stands before the first MinuteEnd (R131). -/
theorem reanchor_split (fb : List Symbol) :
    ∃ dropped, fb = dropped ++ reanchor fb ∧ Symbol.minuteEnd ∉ dropped := by
  refine ⟨fb.takeWhile fun x => decide (x ≠ .minuteEnd), ?_, ?_⟩
  · simp [reanchor, List.takeWhile_append_dropWhile]
  · intro h
    have := List.mem_takeWhile_imp h
    simp at this

theorem reanchor_length_le (fb : List Symbol) : (reanchor fb).length ≤ fb.length :=
  (List.dropWhile_sublist _).length_le

/-- The pops of `n` symbols none of which is MinuteEnd give `n` bits, High as true (R132, R135). -/
theorem popBits_complete (syms rest : List Symbol) (h : Symbol.minuteEnd ∉ syms) :
    popBits syms.length (syms ++ rest) = (some (syms.map fun x => decide (x = .high)), rest) := by
  induction syms with
  | nil => rfl
  | cons x xs ih =>
    simp only [List.mem_cons, not_or] at h
    simp [popBits, ih h.2, Ne.symm h.1]

/-- A MinuteEnd among the symbols aborts the pops, and is consumed (R133). -/
theorem popBits_abort (before after : List Symbol) (n : Nat) (hn : before.length < n)
    (h : Symbol.minuteEnd ∉ before) :
    popBits n (before ++ .minuteEnd :: after) = (none, after) := by
  induction before generalizing n with
  | nil =>
    cases n with
    | zero => simp at hn
    | succ n => simp [popBits]
  | cons x xs ih =>
    cases n with
    | zero => simp at hn
    | succ n =>
      simp only [List.mem_cons, not_or] at h
      simp [popBits, ih n (by simpa using hn) h.2, Ne.symm h.1]

/-- A list without MinuteEnd, or split at its first one. -/
theorem minuteEnd_split (syms : List Symbol) :
    Symbol.minuteEnd ∉ syms ∨
      ∃ before after, syms = before ++ .minuteEnd :: after ∧ Symbol.minuteEnd ∉ before := by
  by_cases h : Symbol.minuteEnd ∈ syms
  · obtain ⟨before, after, h1, h2⟩ := List.append_of_mem h |>.elim fun a ⟨b, hb⟩ =>
      (reanchor_split syms).elim fun dropped hd =>
        (show ∃ before after, syms = before ++ Symbol.minuteEnd :: after ∧
            Symbol.minuteEnd ∉ before by
          rcases reanchor_anchored syms with he | he
          · have := hd.1
            rw [he, List.append_nil] at this
            exact absurd (this ▸ h) hd.2
          · cases hr : reanchor syms with
            | nil => simp [hr] at he
            | cons y ys =>
              simp only [hr, List.head?_cons, Option.some.injEq] at he
              exact ⟨dropped, ys, by rw [← he, ← hr]; exact hd.1, hd.2⟩)
    exact .inr ⟨before, after, h1, h2⟩
  · exact .inl h

/-- FRAME.EXTRACT waits, takes a frame and empties the buffer, or aborts and leaves what follows the
offending MinuteEnd (R132, R133). -/
theorem extractFrame_cases (fb : List Symbol) :
    (extractFrame fb = (none, false, fb) ∧ (fb.length ≠ 60 ∨ fb.head? ≠ some .minuteEnd)) ∨
    (∃ syms, fb = .minuteEnd :: syms ∧ syms.length = 59 ∧ Symbol.minuteEnd ∉ syms ∧
      extractFrame fb = (some (frameOfBits (syms.map fun x => decide (x = .high))), false, [])) ∨
    (∃ before after, fb = .minuteEnd :: (before ++ .minuteEnd :: after) ∧ fb.length = 60 ∧
      Symbol.minuteEnd ∉ before ∧ extractFrame fb = (none, true, after)) := by
  by_cases hc : fb.length = 60 ∧ fb.head? = some .minuteEnd
  · obtain ⟨hl, hh⟩ := hc
    cases fb with
    | nil => simp at hl
    | cons y syms =>
      simp only [List.head?_cons, Option.some.injEq] at hh
      subst hh
      have hs : syms.length = 59 := by simpa using hl
      rcases minuteEnd_split syms with h | ⟨before, after, h1, h2⟩
      · refine .inr (.inl ⟨syms, rfl, hs, h, ?_⟩)
        have := popBits_complete syms [] h
        rw [hs, List.append_nil] at this
        simp [extractFrame, hs, this]
      · refine .inr (.inr ⟨before, after, by rw [h1], hl, h2, ?_⟩)
        have hb : before.length < 59 := by
          have := congrArg List.length h1
          simp at this
          omega
        have := popBits_abort before after 59 hb h2
        rw [← h1] at this
        simp [extractFrame, hs, this]
  · refine .inl ⟨?_, ?_⟩
    · simp only [extractFrame, if_neg hc]
    · by_cases hl : fb.length = 60
      · exact .inr fun hh => hc ⟨hl, hh⟩
      · exact .inl hl

end Sys2Proof.Machine
end

