-- ==== Sys2Proof/Laws/Poll.lean ====
section
/-! SUPPORT. What the Decoder's part of an UPDATE can do, said once (R170 to R176). -/

namespace Sys2Proof.Machine

/-- The score of an accepted sample with a full window, as PHASE.STEP takes it (R174 step 3). -/
def DecState.fedScore (d : DecState) (p : Sample) : Score := BitVec.ofNat 8 (corrScore (d.fed p).w)

/-- The sub-state of an accepted sample after PHASE.STEP (R174 step 6). -/
def DecState.detected (d : DecState) (p : Sample) : DecState :=
  ((d.fed p).phaseStep (d.fedScore p)).2.2

/-- The sub-state of an accepted sample after FRAME.PUSH of its symbol (R174 step 11). -/
def DecState.pushed (d : DecState) (p : Sample) (sym : Symbol) : DecState :=
  { d.detected p with
    lastPeak := some p.stamp
    fb := reanchor (appendSymbol (d.detected p).fb sym) }

/-- The record of an accepted sample before any peak. -/
def scoredPoll (d : DecState) (p : Sample) (peak : Bool) : Poll :=
  { Poll.none with accepted := true, score := some (corrScore (d.fed p).w), peak := peak }

/-- The symbol of a confirmed peak (R121, R122). -/
def DecState.fedSymbol (d : DecState) (p : Sample) : Symbol :=
  if activeCount (d.detected p).w ≤ 2 then .minuteEnd
  else if activeCount (d.detected p).w ≤ 6 then .low else .high

/-- The record of an accepted sample whose symbol was pushed. -/
def symbolPoll (d : DecState) (p : Sample) : Poll :=
  { scoredPoll d p true with
    symbol := some (d.fedSymbol p)
    count := some (activeCount (d.detected p).w) }

theorem corrScore_le (w : Window) : corrScore w ≤ 160 := by
  have hp : popcount Config.core1.pattern = 160 := by decide +kernel
  have hle : corrScore w ≤ popcount Config.core1.pattern := by
    unfold corrScore popcount
    apply List.countP_mono_left
    intro k _ hk
    simp only [BitVec.getLsbD_and, Bool.and_eq_true] at hk
    exact hk.2
  omega

/-- A detector that was active signals a peak only with a full ring (R111). -/
theorem DecState.phaseStep_peak {d : DecState} {x : Score} (h : (d.phaseStep x).2.1 = true) :
    (pushScore d.s x).length = 50 := by
  have hl := pushScore_length d.s x
  by_cases hf : (pushScore d.s x).length < 50
  · rw [DecState.phaseStep_inactive x hf] at h
    cases h
  · omega

/-- Until its symbol is pushed, an accepted sample changes the window, the ring and the detector, and is
remembered (R172, R174). -/
theorem DecState.detected_frame (d : DecState) (p : Sample) :
    (d.detected p).w = (d.histShift p.level).w ∧
    (d.detected p).wcount = (d.histShift p.level).wcount ∧
    (d.detected p).s = pushScore d.s (d.fedScore p) ∧ (d.detected p).lastPeak = d.lastPeak ∧
    (d.detected p).lastSmp = some p.stamp ∧ (d.detected p).fb = d.fb :=
  (d.fed p).phaseStep_frame (d.fedScore p)

/-- FRAME.PUSH of the symbol changes the frame buffer, and the peak is remembered (R123, R131). -/
theorem DecState.pushed_frame (d : DecState) (p : Sample) (sym : Symbol) :
    (d.pushed p sym).w = (d.detected p).w ∧ (d.pushed p sym).wcount = (d.detected p).wcount ∧
    (d.pushed p sym).s = (d.detected p).s ∧ (d.pushed p sym).prevHeight = (d.detected p).prevHeight ∧
    (d.pushed p sym).latch = (d.detected p).latch ∧ (d.pushed p sym).lastPeak = some p.stamp ∧
    (d.pushed p sym).lastSmp = some p.stamp ∧
    (d.pushed p sym).fb = reanchor (appendSymbol d.fb sym) := by
  obtain ⟨-, -, -, -, hl, hf⟩ := d.detected_frame p
  exact ⟨rfl, rfl, rfl, rfl, rfl, rfl, hl, by rw [← hf]; rfl⟩

theorem DecState.accept_of_not_full {d : DecState} {p : Sample} (h : (d.fed p).windowFull = false) :
    d.accept p = ({ Poll.none with accepted := true }, d.fed p) := by
  simp only [DecState.accept, h, Bool.false_eq_true, if_false]

theorem DecState.accept_of_no_peak {d : DecState} {p : Sample} (h : (d.fed p).windowFull = true)
    (hp : ((d.fed p).phaseStep (d.fedScore p)).2.1 = false) :
    d.accept p = (scoredPoll d p false, d.detected p) := by
  simp only [DecState.fedScore] at hp
  simp only [DecState.accept, h, if_true, DecState.detect, hp, Bool.false_eq_true, if_false]
  rfl

theorem DecState.accept_of_peak {d : DecState} {p : Sample} (h : (d.fed p).windowFull = true)
    (hp : ((d.fed p).phaseStep (d.fedScore p)).2.1 = true) :
    d.accept p = (d.detected p).confirmPeak (scoredPoll d p true) p.stamp := by
  simp only [DecState.fedScore] at hp
  simp only [DecState.accept, h, if_true, DecState.detect, hp]
  rfl

/-- Everything an accepted sample can lead to (R174, R175): the window fills; a score without a peak; a
peak with a spacing error; a symbol without a frame, waiting or aborted; a frame with an error; a
frame decoded. -/
theorem DecState.accept_cases (d : DecState) (p : Sample) :
    ((d.fed p).wcount.toNat < 200 ∧ d.accept p = ({ Poll.none with accepted := true }, d.fed p)) ∨
    ((d.fed p).wcount.toNat = 200 ∧
      ((((d.fed p).phaseStep (d.fedScore p)).2.1 = false ∧
          d.accept p = (scoredPoll d p false, d.detected p)) ∨
       (((d.fed p).phaseStep (d.fedScore p)).2.1 = true ∧
        ((∃ e, spacingError (d.detected p).lastPeak p.stamp = some e ∧
            d.accept p = ({ scoredPoll d p true with outcome := .error e }, d.detected p)) ∨
         (spacingError (d.detected p).lastPeak p.stamp = none ∧
          ((∃ ab rest, extractFrame (d.pushed p (d.fedSymbol p)).fb = (none, ab, rest) ∧
              d.accept p = ({ symbolPoll d p with aborted := ab },
                { d.pushed p (d.fedSymbol p) with fb := rest })) ∨
           (∃ f ab rest, extractFrame (d.pushed p (d.fedSymbol p)).fb = (some f, ab, rest) ∧
              ((∃ e, protoDecode f = .error e ∧
                  d.accept p = ({ symbolPoll d p with
                      frame := some f, aborted := ab, outcome := .error e },
                    { d.pushed p (d.fedSymbol p) with fb := rest })) ∨
               (∃ dt, protoDecode f = .ok dt ∧
                  d.accept p = ({ symbolPoll d p with
                      frame := some f, aborted := ab, outcome := .synced dt },
                    { d.pushed p (d.fedSymbol p) with fb := rest })))))))))) := by
  have hw : (d.fed p).wcount.toNat = min (d.wcount.toNat + 1) 200 :=
    d.histShift_wcount_toNat p.level
  by_cases hfull : (d.fed p).windowFull = true
  · have h200 := ((d.fed p).windowFull_iff.mp hfull)
    refine .inr ⟨by omega, ?_⟩
    cases hpk : ((d.fed p).phaseStep (d.fedScore p)).2.1 with
    | false =>
      refine .inl ⟨rfl, ?_⟩
      exact DecState.accept_of_no_peak hfull hpk
    | true =>
      refine .inr ⟨rfl, ?_⟩
      have hacc : d.accept p = (d.detected p).confirmPeak (scoredPoll d p true) p.stamp :=
        DecState.accept_of_peak hfull hpk
      rw [hacc]
      cases hsp : spacingError (d.detected p).lastPeak p.stamp with
      | some e =>
        refine .inl ⟨e, rfl, ?_⟩
        simp [DecState.confirmPeak, DecState.bitClassify_eq, hsp]
      | none =>
        refine .inr ⟨rfl, ?_⟩
        have hconf : (d.detected p).confirmPeak (scoredPoll d p true) p.stamp =
            ({ d.detected p with lastPeak := some p.stamp } : DecState).assemble (symbolPoll d p)
              (d.fedSymbol p) := by
          simp only [DecState.confirmPeak, DecState.bitClassify_eq, hsp]
          rfl
        rw [hconf]
        rcases hex : extractFrame (d.pushed p (d.fedSymbol p)).fb with ⟨fr, ab, rest⟩
        have hasm : ({ d.detected p with lastPeak := some p.stamp } : DecState).framePush
            (d.fedSymbol p) = d.pushed p (d.fedSymbol p) := rfl
        cases fr with
        | none =>
          refine .inl ⟨ab, rest, rfl, ?_⟩
          simp only [DecState.assemble, hasm, hex]
          rfl
        | some f =>
          refine .inr ⟨f, ab, rest, rfl, ?_⟩
          cases hpd : protoDecode f with
          | error e =>
            refine .inl ⟨e, rfl, ?_⟩
            simp only [DecState.assemble, hasm, hex, hpd]
          | ok dt =>
            refine .inr ⟨dt, rfl, ?_⟩
            simp only [DecState.assemble, hasm, hex, hpd]
  · have h200 : ¬ 200 ≤ (d.fed p).wcount.toNat := fun h => hfull ((d.fed p).windowFull_iff.mpr h)
    refine .inl ⟨by omega, ?_⟩
    exact DecState.accept_of_not_full (by simpa using hfull)

/-- A poll does nothing, raises MissedPolledValue, or accepts the sample (R171, R172, R173). -/
theorem DecState.poll_cases (d : DecState) (smp : Option Sample) :
    d.poll smp = (Poll.none, d) ∨
    (∃ p l, smp = some p ∧ d.lastSmp = some l ∧ p.stamp ≠ l ∧ 20 < timerSub p.stamp l ∧
      d.poll smp = ({ Poll.none with
        outcome := .error { kind := .missedPolledValue, info := deltaInfo (timerSub p.stamp l) } }, d)) ∨
    (∃ p, smp = some p ∧
      (d.lastSmp = none ∨ ∃ l, d.lastSmp = some l ∧ p.stamp ≠ l ∧ timerSub p.stamp l = 20) ∧
      d.poll smp = d.accept p) := by
  cases smp with
  | none => exact .inl rfl
  | some p =>
    cases hl : d.lastSmp with
    | none => exact .inr (.inr ⟨p, rfl, .inl rfl, by simp [DecState.poll, hl]⟩)
    | some l =>
      by_cases h1 : p.stamp = l
      · exact .inl (by simp [DecState.poll, hl, h1])
      by_cases h2 : timerSub p.stamp l < 20
      · exact .inl (by simp [DecState.poll, hl, h1, h2])
      by_cases h3 : timerSub p.stamp l > 20
      · exact .inr (.inl ⟨p, l, rfl, rfl, h1, h3, by simp [DecState.poll, hl, h1, h2, h3]⟩)
      · refine .inr (.inr ⟨p, rfl, .inr ⟨l, rfl, h1, by omega⟩, ?_⟩)
        simp [DecState.poll, hl, h1, h2, h3]

/-- Every error of the protocol decoder has a code from 5 to 16 (R230). -/
theorem protoDecode_error_code {fr : Frame} {e : DecErr} (h : protoDecode fr = .error e) :
    5 ≤ e.kind.code.toNat := by
  unfold protoDecode at h
  split at h
  · rename_i e' he
    cases h
    unfold structureError at he
    repeat' split at he
    all_goals first | (cases he; simp [protoErr, ErrKind.code]) | cases he
  · simp only at h
    split at h
    · rename_i e' he
      cases h
      unfold rangeError at he
      repeat' split at he
      all_goals first | (cases he; simp [protoErr, ErrKind.code]) | cases he
    · cases h

/-- What the record of a poll that raised an error shows of the stages before it (R212). -/
theorem DecState.poll_error {d : DecState} {smp : Option Sample} {e : DecErr}
    (h : (d.poll smp).1.outcome = .error e) :
    (e.kind.code.toNat = 1 ∧ (d.poll smp).1 = { Poll.none with outcome := .error e }) ∨
    (2 ≤ e.kind.code.toNat ∧ e.kind.code.toNat ≤ 3 ∧ ∃ n, (d.poll smp).1 =
      { Poll.none with accepted := true, score := some n, peak := true, outcome := .error e }) ∨
    (5 ≤ e.kind.code.toNat ∧ ∃ n sym c f, (d.poll smp).1 =
      { accepted := true, score := some n, peak := true, symbol := some sym, count := some c,
        frame := some f, aborted := false, outcome := .error e }) := by
  rcases d.poll_cases smp with hp | ⟨p, l, -, -, -, -, hp⟩ | ⟨p, -, -, hp⟩
  · simp [hp, Poll.none] at h
  · rw [hp] at h ⊢
    cases h
    exact .inl ⟨rfl, rfl⟩
  · rw [hp] at h ⊢
    rcases d.accept_cases p with ⟨-, ha⟩ | ⟨-, ⟨-, ha⟩ | ⟨-, ⟨e', he, ha⟩ | ⟨-, ⟨ab, rest, -, ha⟩ |
        ⟨f, ab, rest, hex, ⟨e', he, ha⟩ | ⟨dt, -, ha⟩⟩⟩⟩⟩ <;> rw [ha] at h ⊢
    · simp [Poll.none] at h
    · simp [scoredPoll, Poll.none] at h
    · cases h
      rcases spacingError_kind he with hk | hk <;>
        exact .inr (.inl ⟨by rw [hk]; decide, by rw [hk]; decide, _, rfl⟩)
    · simp [symbolPoll, scoredPoll, Poll.none] at h
    · cases h
      have hab : ab = false := by
        rcases extractFrame_cases (d.pushed p (d.fedSymbol p)).fb with ⟨hx, -⟩ | ⟨_, -, -, -, hx⟩ |
            ⟨_, _, -, -, -, hx⟩ <;> rw [hx] at hex <;> cases hex
        rfl
      subst hab
      exact .inr (.inr ⟨protoDecode_error_code he, _, _, _, _, rfl⟩)
    · cases h

/-- After a poll the machine is resynced if an error was raised, and else only the Decoder sub-state
has changed (R175, R176). -/
theorem State.decPoll_eq (s : State) (smp : Option Sample) :
    s.decPoll smp = ((s.dec.poll smp).1,
      match (s.dec.poll smp).1.outcome with
      | .error e => s.resync e
      | .nothing => s.setDec (s.dec.poll smp).2
      | .synced _ => s.setDec (s.dec.poll smp).2) := by
  rfl

end Sys2Proof.Machine
end

