-- ==== Sys2Proof/Laws/Update.lean ====
section
/-! SUPPORT. What an UPDATE leaves in each field, said once (R190 to R197, R212), and the bits of its status word (R68). -/

namespace Sys2Proof.Machine

/-! ### The status word -/

theorem statusWord_bits (f : UpdateFlags) :
    (statusWord f).getLsbD 0 = f.smpAcc ∧ (statusWord f).getLsbD 1 = f.score ∧
    (statusWord f).getLsbD 2 = f.peak ∧ (statusWord f).getLsbD 3 = f.sym ∧
    (statusWord f).getLsbD 4 = f.frame ∧ (statusWord f).getLsbD 5 = f.sync ∧
    (statusWord f).getLsbD 6 = f.derr ∧ (statusWord f).getLsbD 7 = f.rtcw ∧
    (statusWord f).getLsbD 8 = f.rtcwOk ∧ (statusWord f).getLsbD 9 = f.timeOk ∧
    (statusWord f).getLsbD 10 = f.phchg ∧ (statusWord f).getLsbD 11 = f.fabort := by
  simp only [statusWord, BitVec.getLsbD_append, BitVec.getLsbD_ofBool]
  simp

theorem statusWord_high (f : UpdateFlags) (i : Nat) (h : 12 ≤ i) :
    (statusWord f).getLsbD i = false := by
  by_cases hi : i < 32
  · simp only [statusWord, BitVec.getLsbD_append, BitVec.getLsbD_ofBool, BitVec.getLsbD_zero]
    interval_cases i <;> simp
  · exact BitVec.getLsbD_of_ge _ _ (by omega)

/-! ### The Decoder's part -/

theorem State.decPoll_fst (s : State) (smp : Option Sample) :
    (s.decPoll smp).1 = (s.dec.poll smp).1 := rfl

/-- The Decoder's part of an UPDATE writes the Decoder sub-state and `lasterr` only (R10, R176). -/
theorem State.decPoll_frame (s : State) (smp : Option Sample) :
    (s.decPoll smp).2.hw = s.hw ∧ (s.decPoll smp).2.rtc = s.rtc ∧ (s.decPoll smp).2.out = s.out ∧
    (s.decPoll smp).2.inbox = s.inbox ∧ (s.decPoll smp).2.stage = s.stage ∧
    (s.decPoll smp).2.clk = { s.clk with lasterr := (s.decPoll smp).2.clk.lasterr } := by
  rw [State.decPoll_eq]
  cases (s.dec.poll smp).1.outcome <;> simp

/-- The Decoder sub-state after the Decoder's part (R175, R176). -/
theorem State.decPoll_dec (s : State) (smp : Option Sample) :
    (s.decPoll smp).2.dec =
      if (s.dec.poll smp).1.outcome.isError then DecState.empty else (s.dec.poll smp).2 := by
  rw [State.decPoll_eq]
  cases (s.dec.poll smp).1.outcome <;> simp [PollEnd.isError]

/-- `lasterr` after the Decoder's part (R23, R176). -/
theorem State.decPoll_lasterr (s : State) (smp : Option Sample) :
    (s.decPoll smp).2.clk.lasterr = match (s.dec.poll smp).1.outcome with
      | .error e => some e
      | .nothing => s.clk.lasterr
      | .synced _ => s.clk.lasterr := by
  rw [State.decPoll_eq]
  cases (s.dec.poll smp).1.outcome <;> simp

/-- The phase after step 5 of an UPDATE, from the aggregate it evaluates (R197). -/
def ClockAgg.phaseAfter (c : ClockAgg) : Phase :=
  match c.datetime with
  | none => c.phase
  | some now => phaseAt c now

/-- The phase evaluation writes `phase` only, and only with the time known (R197). -/
theorem State.phaseEval_eq (s : State) :
    s.phaseEval = { s with clk := { s.clk with phase := s.clk.phaseAfter } } := by
  unfold State.phaseEval ClockAgg.phaseAfter
  cases s.clk.datetime <;> rfl

/-! ### UPDATE -/

/-- The Clock aggregate after step 4 of an UPDATE (R191, R192, R194). -/
def ClockAgg.merged (c : ClockAgg) (r : Poll) (lasterr : Option DecErr) (reading : Option Datetime) :
    ClockAgg :=
  { c with
    lasterr := lasterr
    lastBit := r.symbol <|> c.lastBit
    lastRadioSync := match r.outcome with
      | .synced dt => some dt
      | .nothing => c.lastRadioSync
      | .error _ => c.lastRadioSync
    datetime := reading }

/-- The output ports after an UPDATE with the status word `w` (R68, R193, R194, R196). -/
def Poll.outputs (r : Poll) (w : Word) : Outputs :=
  match r.outcome with
  | .synced dt =>
    { rspErr := false, rspData := w, rtcWreq := true, rtcWdata := packDatetime dt,
      rtcWsecValid := dt.time.second.isSome, rtcRreq := true }
  | .nothing => { Outputs.idle with rspData := w, rtcRreq := true }
  | .error _ => { Outputs.idle with rspData := w, rtcRreq := true }

/-- UPDATE, every field of the state at once (R190 to R194, R197, R212). -/
theorem State.update_eq (s : State) :
    let r := (s.dec.poll s.hw.pub).1
    let polled := (s.decPoll s.hw.pub).2
    let merged := s.clk.merged r polled.clk.lasterr s.rtc.reading
    let phase := merged.phaseAfter
    s.update = { s with
      dec := polled.dec
      clk := { merged with phase := phase }
      out := r.outputs (statusWord (updateFlags r s.rtc.wack s.rtc.reading s.clk.phase phase)) } := by
  intro r polled merged phase
  have hp : (s.respond 0#32).decPoll s.hw.pub =
      ((s.dec.poll s.hw.pub).1, (polled.respond 0#32)) := by
    simp only [polled, State.decPoll_eq, State.respond_dec]
    cases (s.dec.poll s.hw.pub).1.outcome <;> rfl
  have hclk : polled.clk = { s.clk with lasterr := polled.clk.lasterr } :=
    (State.decPoll_frame s s.hw.pub).2.2.2.2.2
  obtain ⟨hhw, hrtc, -, hin, hst, -⟩ : polled.hw = s.hw ∧ polled.rtc = s.rtc ∧ _ ∧
      polled.inbox = s.inbox ∧ polled.stage = s.stage ∧ _ := State.decPoll_frame s s.hw.pub
  have hr : (s.dec.poll s.hw.pub).1 = r := rfl
  simp only [State.update, State.updateToRead, hp, State.phaseEval_eq, hr]
  clear_value r polled
  obtain ⟨dec, clk, hw, rtc, out, inbox, stage⟩ := polled
  simp only at hclk hhw hrtc hin hst
  subst hhw hrtc hin hst
  rw [hclk]
  rcases r with ⟨_, _, _, sym, _, _, _, oc⟩
  cases sym <;> cases oc <;>
    simp [State.noteSymbol, State.noteSync, State.rtcRead, State.rtcWrite, State.respond,
      ClockAgg.merged, Poll.outputs, State.setClk, Outputs.idle, ClockAgg.phaseAfter, phase,
      merged]

end Sys2Proof.Machine
end

