-- ==== Sys2Proof/Laws/Step.lean ====
section
/-! SUPPORT. What the decoder can answer and what a step can do, said once (R65 to R70, R260, R261; entry 1). -/

namespace Sys2Proof

/-! ### The decoder -/

theorem Reg.ofNumber_number (r : Reg) : Reg.ofNumber r.number = some r := by
  cases r <;> decide

theorem Reg.number_of_ofNumber {n : BitVec 8} {r : Reg} (h : Reg.ofNumber n = some r) :
    r.number = n := by
  revert h
  revert r
  revert n
  decide +kernel

theorem registerDefined_iff (n : BitVec 8) : registerDefined n = (Reg.ofNumber n).isSome := by
  revert n
  decide +kernel

theorem acceptIf_ok {w reserved : Word} {i j : Instr} (h : acceptIf w reserved i = .ok j) :
    w &&& reserved = 0#32 ∧ j = i := by
  unfold acceptIf at h
  split at h
  · injection h with h
    exact ⟨‹_›, h.symm⟩
  · cases h

/-- What a decoded command is, with its opcode and its reserved bits (R65, R66). -/
theorem decode_cases {w : Word} {i : Instr} (h : decode w = .ok i) :
    (opField w = 0x00#8 ∧ w &&& reservedC0 = 0#32 ∧ i = .nop) ∨
    (opField w = 0x01#8 ∧ w &&& reservedC0 = 0#32 ∧ i = .update) ∨
    (opField w = 0x02#8 ∧ w &&& reservedC0 = 0#32 ∧ i = .ack) ∨
    (opField w = 0x10#8 ∧ w &&& reservedC1 = 0#32 ∧ i = .setdawn (vField w) (minField w)) ∨
    (opField w = 0x11#8 ∧ w &&& reservedC2 = 0#32 ∧
      i = .setweek (vField w) (hourField w) (minuteField w)) ∨
    (opField w = 0x12#8 ∧ w &&& reservedC2 = 0#32 ∧
      i = .setwknd (vField w) (hourField w) (minuteField w)) ∨
    (opField w = 0x20#8 ∧ w &&& reservedC3 = 0#32 ∧ i = rdregRow (regField w)) := by
  unfold decode at h
  split_ifs at h <;> first | cases h | (obtain ⟨h1, h2⟩ := acceptIf_ok h; simp_all)

/-- A word with format C0's reserved bits clear is its opcode's word (R65). -/
theorem eq_of_op_c0 {w : Word} (h : w &&& reservedC0 = 0#32) : w = opField w ++ 0#24 := by
  apply BitVec.eq_of_getLsbD_eq
  intro k hk
  have := congrArg (fun x => x.getLsbD k) h
  simp only [BitVec.getLsbD_and, reservedC0, BitVec.getLsbD_zero] at this
  simp only [opField, BitVec.getLsbD_append, BitVec.getLsbD_extractLsb', BitVec.getLsbD_zero]
  interval_cases k <;> simp_all

end Sys2Proof

namespace Sys2Proof.Machine

/-! ### Commands -/

theorem exec_row (r : Reg) (s : State) : exec r.row s = .next (s.respond (s.regRead r)) := by
  cases r <;> rfl

theorem exec_rdregRow (n : BitVec 8) (s : State) :
    (∃ r, exec (rdregRow n) s = .next (s.respond (s.regRead r))) ∨
      exec (rdregRow n) s = .next s.refuse := by
  unfold rdregRow
  cases h : Reg.ofNumber n with
  | some r => exact .inl ⟨r, exec_row r s⟩
  | none => exact .inr (by simp [exec, execRdreg, h])

/-- What a command word can do (R70, R190, R204 to R208, R211): it is refused, it runs UPDATE or ACK, it
writes one configuration field, or it only responds. -/
theorem command_cases {i : Instr} {w : Word} {s t : State} (hd : decode w = .ok i)
    (h : exec i s = .next t) :
    t = s.refuse ∨
    (∃ data, t = s.respond data) ∨
    (w = 0x01000000#32 ∧ t = s.update) ∨
    (w = 0x02000000#32 ∧ t = (s.setClk { s.clk with
      phase := .default (s.clk.datetime.map fun now => now.date.day) }).respond 0#32) ∨
    (opField w = 0x10#8 ∧ t = (s.setClk { s.clk with
      dawnDuration := minutesOperand (vField w) (minField w) }).respond 0#32) ∨
    (opField w = 0x11#8 ∧ timeOperandBad (vField w) (hourField w) (minuteField w) = false ∧
      t = (s.setClk { s.clk with
        weekSunrise := timeOperand (vField w) (hourField w) (minuteField w) }).respond 0#32) ∨
    (opField w = 0x12#8 ∧ timeOperandBad (vField w) (hourField w) (minuteField w) = false ∧
      t = (s.setClk { s.clk with
        weekendSunrise := timeOperand (vField w) (hourField w) (minuteField w) }).respond 0#32) := by
  rcases decode_cases hd with ⟨ho, hr, rfl⟩ | ⟨ho, hr, rfl⟩ | ⟨ho, hr, rfl⟩ | ⟨ho, hr, rfl⟩ |
    ⟨ho, hr, rfl⟩ | ⟨ho, hr, rfl⟩ | ⟨ho, hr, rfl⟩
  · injection h with h
    exact .inr (.inl ⟨_, h.symm⟩)
  · injection h with h
    exact .inr (.inr (.inl ⟨by rw [eq_of_op_c0 hr, ho]; decide, h.symm⟩))
  · injection h with h
    exact .inr (.inr (.inr (.inl ⟨by rw [eq_of_op_c0 hr, ho]; decide, h.symm⟩)))
  · injection h with h
    exact .inr (.inr (.inr (.inr (.inl ⟨ho, h.symm⟩))))
  · simp only [exec, execSetweek] at h
    split at h
    · injection h with h
      exact .inl h.symm
    · injection h with h
      exact .inr (.inr (.inr (.inr (.inr (.inl ⟨ho, by simp_all only [Bool.not_eq_true], h.symm⟩)))))
  · simp only [exec, execSetwknd] at h
    split at h
    · injection h with h
      exact .inl h.symm
    · injection h with h
      exact .inr (.inr (.inr (.inr (.inr (.inr ⟨ho, by simp_all only [Bool.not_eq_true], h.symm⟩)))))
  · rcases exec_rdregRow (regField w) s with ⟨r, hr⟩ | hr <;> rw [hr] at h <;> injection h with h
    · exact .inr (.inl ⟨_, h.symm⟩)
    · exact .inl h.symm

/-! ### Steps -/

/-- The state from which the next event runs. -/
def State.took (s : State) (rest : List Event) : State := { s with inbox := rest }

@[simp] theorem State.took_dec (s : State) (rest : List Event) : (s.took rest).dec = s.dec := rfl
@[simp] theorem State.took_clk (s : State) (rest : List Event) : (s.took rest).clk = s.clk := rfl
@[simp] theorem State.took_hw (s : State) (rest : List Event) : (s.took rest).hw = s.hw := rfl
@[simp] theorem State.took_rtc (s : State) (rest : List Event) : (s.took rest).rtc = s.rtc := rfl
@[simp] theorem State.took_out (s : State) (rest : List Event) : (s.took rest).out = s.out := rfl
@[simp] theorem State.took_inbox (s : State) (rest : List Event) : (s.took rest).inbox = rest := rfl
@[simp] theorem State.took_stage (s : State) (rest : List Event) : (s.took rest).stage = s.stage := rfl

theorem step_host {s : State} {w : Word} {rest : List Event} (h : s.inbox = .host w :: rest) :
    step s = match decode w with
      | .ok i => exec i (s.took rest)
      | .error _ => .next (s.took rest).refuse := by
  simp only [step, State.fetch, h, State.deliver, State.hostCommand, State.took]
  cases decode w <;> rfl

/-- Everything a step can do (entry 1). -/
theorem step_cases {s t : State} (h : step s = .next t) :
    (s.inbox = [] ∧ t = s) ∨
    (∃ w rest i, s.inbox = .host w :: rest ∧ decode w = .ok i ∧ exec i (s.took rest) = .next t) ∨
    (∃ w rest, s.inbox = .host w :: rest ∧ t = (s.took rest).refuse) ∨
    (∃ pin rest, s.inbox = .tick pin :: rest ∧ t = { s.took rest with hw := s.hw.tick pin }) ∨
    (∃ rest, s.inbox = .rst :: rest ∧ t = { s.took rest with
      dec := DecState.empty, clk := ClockAgg.reset, out := Outputs.idle, stage := .none }) ∨
    (∃ rest, s.inbox = .rstClock :: rest ∧ t = { s.took rest with hw := HwClock.reset }) ∨
    (∃ a rest, s.inbox = .rtc a :: rest ∧ t = { s.took rest with rtc := a }) ∨
    (∃ p rest, s.inbox = .smp p :: rest ∧ t = { s.took rest with hw := { s.hw with pub := p } }) := by
  cases hin : s.inbox with
  | nil =>
    simp only [step, State.fetch, hin] at h
    injection h with h
    exact .inl ⟨rfl, h.symm⟩
  | cons e rest =>
    refine .inr ?_
    cases e with
    | host w =>
      rw [step_host hin] at h
      cases hd : decode w with
      | ok i =>
        rw [hd] at h
        exact .inl ⟨w, rest, i, rfl, hd, h⟩
      | error _ =>
        rw [hd] at h
        injection h with h
        exact .inr (.inl ⟨w, rest, rfl, h.symm⟩)
    | tick pin =>
      simp only [step, State.fetch, hin, State.deliver, exec, execTick] at h
      injection h with h
      exact .inr (.inr (.inl ⟨pin, rest, rfl, h.symm⟩))
    | rst =>
      simp only [step, State.fetch, hin, State.deliver, exec, execReset] at h
      injection h with h
      exact .inr (.inr (.inr (.inl ⟨rest, rfl, h.symm⟩)))
    | rstClock =>
      simp only [step, State.fetch, hin, State.deliver] at h
      injection h with h
      exact .inr (.inr (.inr (.inr (.inl ⟨rest, rfl, h.symm⟩))))
    | rtc a =>
      simp only [step, State.fetch, hin, State.deliver] at h
      injection h with h
      exact .inr (.inr (.inr (.inr (.inr (.inl ⟨a, rest, rfl, h.symm⟩)))))
    | smp p =>
      simp only [step, State.fetch, hin, State.deliver] at h
      injection h with h
      exact .inr (.inr (.inr (.inr (.inr (.inr ⟨p, rest, rfl, h.symm⟩)))))

end Sys2Proof.Machine
end

