-- ==== Sys2Proof/Laws/Words.lean ====
section
/-! SUPPORT. A word put together from fields, as a number: for the register and command words (R65, R71 to R74). -/

namespace Sys2Proof.Machine

/-- The number of two fields side by side. -/
theorem append_toNat {m n : Nat} (x : BitVec m) (y : BitVec n) :
    (x ++ y).toNat = x.toNat * 2 ^ n + y.toNat := by
  rw [BitVec.toNat_append, ← Nat.shiftLeft_add_eq_or_of_lt y.isLt, Nat.shiftLeft_eq]

/-- QUARTERS of a value that fits its field (R73). -/
theorem quartersWord_toNat {q : Nat} (h : q < 4096) :
    (quartersWord (some q)).toNat = 2 ^ 31 + q := by
  refine (append_toNat (1#1 ++ 0#19) (BitVec.ofNat 12 q)).trans ?_
  simp
  omega

/-- The DATE word (R71). -/
theorem dateWord_toNat (dt : Datetime) :
    (dateWord (some dt)).toNat = 2 ^ 31 + dt.date.weekday.toNat * 2 ^ 24 + dt.date.year.toNat * 2 ^ 16
      + dt.date.month.toNat * 2 ^ 8 + dt.date.day.toNat := by
  refine (append_toNat _ dt.date.day).trans ?_
  simp only [append_toNat]
  simp
  omega

/-- The TIME word (R71). -/
theorem timeWord_toNat (dt : Datetime) :
    (timeWord (some dt)).toNat = 2 ^ 31 + (if dt.time.second.isSome then 2 ^ 23 else 0)
      + (dt.time.second.getD 0#6).toNat * 2 ^ 16 + dt.time.hour.toNat * 2 ^ 8
      + dt.time.minute.toNat := by
  refine (append_toNat _ dt.time.minute).trans ?_
  simp only [append_toNat]
  cases dt.time.second.isSome <;> simp <;> omega

end Sys2Proof.Machine
end

