-- ==== Sys2Proof/Machine/Assembly.lean ====
section
/-! DEFINITION. The lines in which the spec writes its programs (R77), as data: each line is the events it stands for. -/

namespace Sys2Proof.Machine

/-- One line of a program (R77), pseudo-commands included. The operands of UPDATE are the environment
inputs it consumes: the pair, whether a write is acknowledged, and what the read answers. -/
inductive Line where
  | nop
  | update (smp : Option Sample) (rtcw : Bool) (rtcr : Option Datetime)
  | ack
  | setdawn (minutes : Option Minutes)
  | setweek (sunrise : Option (BitVec 5 × BitVec 6))
  | setwknd (sunrise : Option (BitVec 5 × BitVec 6))
  | rdreg (number : BitVec 8)
  | clrdawn
  | clrweek
  | clrwknd
  /-- `RD.<NAME>`. -/
  | rd (reg : Reg)
deriving DecidableEq, Repr

/-- The word of a C1 line; `none` assembles `V = 0` with a zero value field (R77). -/
def minutesWord (minutes : Option Minutes) : Word :=
  wordC1 0x10#8 minutes.isSome (minutes.getD 0#12)

/-- The word of a C2 line; `none` assembles `V = 0` with zero value fields (R77). -/
def sunriseLineWord (op : BitVec 8) (sunrise : Option (BitVec 5 × BitVec 6)) : Word :=
  match sunrise with
  | none => wordC2 op false 0#5 0#6
  | some (hour, minute) => wordC2 op true hour minute

/-- The command word of a line (R77, R66). -/
def Line.word : Line → Word
  | .nop => wordC0 0x00#8
  | .update _ _ _ => wordC0 0x01#8
  | .ack => wordC0 0x02#8
  | .setdawn minutes => minutesWord minutes
  | .setweek sunrise => sunriseLineWord 0x11#8 sunrise
  | .setwknd sunrise => sunriseLineWord 0x12#8 sunrise
  | .rdreg number => wordC3 0x20#8 number
  | .clrdawn => minutesWord none
  | .clrweek => sunriseLineWord 0x11#8 none
  | .clrwknd => sunriseLineWord 0x12#8 none
  | .rd reg => wordC3 0x20#8 reg.number

/-- What the RTC answers on a line: the acknowledgement of a write, and a failed read or the payload of
a Datetime (R77, R76). The payload beside a failed read is a free value: DESIGN CHOICE (entry 22). -/
def lineAnswer (rtcw : Bool) (rtcr : Option Datetime) : RtcPort :=
  match rtcr with
  | none => { wack := rtcw, rok := false, rdata := Config.failedReadData }
  | some dt => { wack := rtcw, rok := true, rdata := packDatetime dt }

/-- The events of a line: the environment inputs of an UPDATE stand before its command word (R6, R77). -/
def Line.events (line : Line) : List Event :=
  match line with
  | .update smp rtcw rtcr => [.smp smp, .rtc (lineAnswer rtcw rtcr), .host line.word]
  | .nop => [.host line.word]
  | .ack => [.host line.word]
  | .setdawn _ => [.host line.word]
  | .setweek _ => [.host line.word]
  | .setwknd _ => [.host line.word]
  | .rdreg _ => [.host line.word]
  | .clrdawn => [.host line.word]
  | .clrweek => [.host line.word]
  | .clrwknd => [.host line.word]
  | .rd _ => [.host line.word]

end Sys2Proof.Machine
end

