-- ==== Sys2Proof/Tests/Slice0.lean ====
section
/-! SUPPORT. The model's own tests (expected values from spec/95_test_vectors.md), the WellFormed smoke test, and a
witness for the hypotheses of every statement that has hypotheses. -/

namespace Sys2Proof.Tests

open Sys2Proof.Machine

/-! ### Helpers -/

/-- The next state, if there is one. -/
def nextOf (o : Host.Outcome State Fault Refusal) : Option State :=
  match o with
  | .next s => some s
  | .fault _ => none
  | .refused _ => none

/-- The state after `i`, or the reset state if there is none. -/
def after (i : Instr) (s : State) : State := (nextOf (exec i s)).getD State.reset

/-- The state after a step, or the reset state if there is none. -/
def stepped (s : State) : State := (nextOf (step s)).getD State.reset

def withDec (d : DecState) : State := { State.reset with dec := d }
def withClk (c : ClockAgg) : State := { State.reset with clk := c }
def withInbox (l : List Event) : State := { State.reset with inbox := l }

/-- The word an RDREG row answers. -/
def reads (i : Instr) (s : State) : Word := (after i s).out.rspData

/-- Thursday 2023-12-07 21:34 (V7), with a second or none. -/
def v7time (second : Option (BitVec 6)) : Datetime :=
  { date := { day := 7#5, month := 12#4, year := 23#7, weekday := 4#3 }
    time := { hour := 21#5, minute := 34#6, second := second } }

/-- Any Datetime, for the vectors. -/
def stampOf (y mo d wd h mi : Nat) (second : Option (BitVec 6)) : Datetime :=
  { date := { day := BitVec.ofNat 5 d, month := BitVec.ofNat 4 mo, year := BitVec.ofNat 7 y,
              weekday := BitVec.ofNat 3 wd }
    time := { hour := BitVec.ofNat 5 h, minute := BitVec.ofNat 6 mi, second := second } }

/-- The frame of V7. -/
def v7frame : Frame := 0x48E507436940000#59

/-- The 59 symbols of the frame of V7. -/
def v7symbols : List Symbol :=
  (List.range 59).map fun i => if v7frame.getLsbD i then .high else .low

def ring (n v : Nat) : List Score := List.replicate n (BitVec.ofNat 8 v)

/-- A full window and ring, a height about to fall, and `fb` in the buffer: the next accepted sample is
a peak, its symbol High. -/
def peaking (fb : List Symbol) : DecState :=
  { DecState.empty with
    w := 0x3FF#200, wcount := 200#8, s := ring 50 100, prevHeight := 255#8, fb := fb }

/-- `peaking` in a machine whose sampling interface shows (5220, 0) and whose RTC answers. -/
def peakState (fb : List Symbol) : State :=
  { withDec (peaking fb) with
    hw := { timer := 5220#16, vote := 0, pub := some { stamp := 5220#16, level := false } }
    rtc := { wack := true, rok := true, rdata := 0x23120704213400#56 } }

/-! ### Parameters and encodings -/

/-- The constraints of R7 that are arithmetic. -/
theorem test_parameters : Config.core1.n = Config.core1.h * Config.core1.f ∧
    Config.core1.timerMax = (2 ^ Config.core1.timerW - 1) / Config.core1.period * Config.core1.period ∧
    Config.core1.f * Config.core1.period = 1000 ∧ Config.core1.frameLen + 1 = Config.core1.fbCap ∧
    Config.core1.bwOff + Config.core1.bwLen ≤ Config.core1.f := by decide

/-- The word of R103 is its formula. -/
theorem test_pattern : ∀ k < 200, Config.core1.pattern.getLsbD k = decide (10 ≤ k % 50) := by
  decide +kernel

theorem test_register_map : ∀ r : BitVec 8, registerDefined r = (Reg.ofNumber r).isSome := by
  decide

/-- V120 to V146: every word of R66 and every refusal of the decoder. -/
theorem test_decode_c0 : decode 0x00000000#32 = .ok .nop ∧ decode 0x01000000#32 = .ok .update ∧
    decode 0x02000000#32 = .ok .ack ∧ decode 0x00000001#32 = .error .reservedBits ∧
    decode 0x01000001#32 = .error .reservedBits ∧ decode 0x03000000#32 = .error .unknownOpcode := by
  decide

theorem test_decode_setdawn : decode 0x10010014#32 = .ok (.setdawn true 20#12) ∧
    decode 0x10000014#32 = .ok (.setdawn false 20#12) ∧
    decode 0x10010FFF#32 = .ok (.setdawn true 4095#12) ∧
    decode 0x10011000#32 = .error .reservedBits ∧ decode 0x10030014#32 = .error .reservedBits := by
  decide

theorem test_decode_setweek : decode 0x11010600#32 = .ok (.setweek true 6#5 0#6) ∧
    decode 0x1101173B#32 = .ok (.setweek true 23#5 59#6) ∧
    decode 0x11001F3F#32 = .ok (.setweek false 31#5 63#6) ∧
    decode 0x11010640#32 = .error .reservedBits := by decide

theorem test_decode_setwknd : decode 0x1201081E#32 = .ok (.setwknd true 8#5 30#6) ∧
    decode 0x12000000#32 = .ok (.setwknd false 0#5 0#6) := by decide

theorem test_decode_rdreg :
    [0x20000000#32, 0x20000001#32, 0x20000002#32, 0x20000003#32, 0x20000004#32, 0x20000005#32,
      0x20000006#32, 0x20000007#32, 0x20000008#32, 0x20000009#32, 0x2000000A#32, 0x20000010#32,
      0x20000011#32, 0x20000012#32, 0x20000013#32].map decode =
    [.ok .rdregCurDate, .ok .rdregCurTime, .ok .rdregSyncDate, .ok .rdregSyncTime, .ok .rdregPhase,
      .ok .rdregLastbit, .ok .rdregQuarters, .ok .rdregLasterr, .ok .rdregDawn, .ok .rdregWeek,
      .ok .rdregWknd, .ok .rdregDecstat, .ok .rdregFbstat, .ok .rdregSmpstamp,
      .ok .rdregPeakstamp] := by decide

theorem test_decode_rdreg_undefined : decode 0x2000000B#32 = .ok (.rdreg 0x0B#8) ∧
    decode 0x2000000F#32 = .ok (.rdreg 0x0F#8) ∧ decode 0x20000014#32 = .ok (.rdreg 0x14#8) ∧
    decode 0x20000104#32 = .error .reservedBits ∧ decode 0xFFFFFFFF#32 = .error .unknownOpcode ∧
    decode 0x21000000#32 = .error .unknownOpcode := by decide

theorem test_decodeTableWord : decodeTableWord 32 0x20000004 = some .rdregPhase ∧
    decodeTableWord 32 0x11010640 = none := by decide

theorem test_withFetchWord :
    (stepped (State.reset.withFetchWord 32 0x10010014)).clk.dawnDuration = some 20#12 := by decide

/-- The examples of R77, and the pseudo-commands. -/
theorem test_lines : [Line.setdawn (some 20#12), .setweek (some (6#5, 0#6)), .setwknd none, .rd .phase,
      .rdreg 0x04#8, .update none true none, .ack, .nop, .clrdawn, .clrweek, .clrwknd].map Line.word
    = [0x10010014#32, 0x11010600#32, 0x12000000#32, 0x20000004#32, 0x20000004#32, 0x01000000#32,
      0x02000000#32, 0x00000000#32, 0x10000000#32, 0x11000000#32, 0x12000000#32] ∧
    (Line.update (some { stamp := 20#16, level := true }) false none).events
      = [.smp (some { stamp := 20#16, level := true }),
        .rtc { wack := false, rok := false, rdata := Config.failedReadData }, .host 0x01000000#32] :=
  ⟨by decide, rfl⟩

/-! ### WellFormed: an ill-formed term for each check -/

theorem test_wf_refuses_setweek_hour : (Instr.setweek true 24#5 0#6).wellFormed = false := by decide
theorem test_wf_refuses_setweek_minute : (Instr.setweek true 23#5 60#6).wellFormed = false := by decide
theorem test_wf_refuses_setwknd_hour : (Instr.setwknd true 24#5 0#6).wellFormed = false := by decide
theorem test_wf_refuses_setwknd_minute : (Instr.setwknd true 0#5 60#6).wellFormed = false := by decide
theorem test_wf_accepts_ignored_fields : (Instr.setweek false 31#5 63#6).wellFormed = true := by decide
theorem test_wf_refuses_rdreg : (Instr.rdreg 0x0B#8).wellFormed = false := by decide
theorem test_wf_refuses_tsub : (Instr.tsub 65521#16 0#16).wellFormed = false ∧
    (Instr.tsub 0#16 65521#16).wellFormed = false := by decide
theorem test_wf_refuses_bitClassify : (Instr.bitClassify 65521#16).wellFormed = false := by decide
theorem test_wf_refuses_decPoll :
    (Instr.decPoll (some { stamp := 65521#16, level := true })).wellFormed = false := by decide
theorem test_wf_refuses_rtcWrite :
    (Instr.rtcWrite (stampOf 23 13 7 4 21 34 none)).wellFormed = false ∧
    (Instr.rtcWrite (stampOf 23 12 0 4 21 34 none)).wellFormed = false ∧
    (Instr.rtcWrite (stampOf 100 12 7 4 21 34 none)).wellFormed = false ∧
    (Instr.rtcWrite (stampOf 23 12 7 0 21 34 none)).wellFormed = false ∧
    (Instr.rtcWrite (stampOf 23 12 7 4 24 34 none)).wellFormed = false ∧
    (Instr.rtcWrite (stampOf 23 12 7 4 21 60 none)).wellFormed = false ∧
    (Instr.rtcWrite (stampOf 23 12 7 4 21 34 (some 60#6))).wellFormed = false := by decide

/-! ### Commands -/

/-- R211. -/
theorem test_nop : (after .nop (peakState [])).dec = peaking [] ∧
    (after .nop (peakState [])).out = Outputs.idle := by decide

/-- R212's second worked example: a frame completes, the write is acknowledged, the read is good. -/
theorem test_update_completes_a_frame :
    (after .update (peakState (.minuteEnd :: v7symbols.take 58))).out.rspData = 0x000003BF#32 ∧
    (after .update (peakState (.minuteEnd :: v7symbols.take 58))).out.rtcWdata
      = 0x23120704213400#56 := by decide +kernel

/-- V79 and P3: a gap of two periods. -/
theorem test_update_missed :
    (after .update { withDec { peaking [] with lastSmp := some 5180#16 } with
      hw := { timer := 5220#16, vote := 0, pub := some { stamp := 5220#16, level := true } } }).out.rspData
      = 0x00000040#32 := by decide

/-- V94a and V94. -/
theorem test_ack : (after .ack (withClk { ClockAgg.reset with
      datetime := some (stampOf 23 12 4 1 6 5 (some 0#6)), phase := .dawn 5#12 })).clk.phase
      = .default (some 4#5) ∧
    (after .ack (withClk { ClockAgg.reset with phase := .sunRise 5#12 })).clk.phase = .default none := by
  decide

/-- R205's worked example and V112. -/
theorem test_setdawn : (after (.setdawn true 20#12) State.reset).clk.dawnDuration = some 20#12 ∧
    (after (.setdawn false 20#12) State.reset).clk.dawnDuration = none := by decide

/-- R206's worked example. -/
theorem test_setweek : (after (.setweek true 6#5 0#6) State.reset).clk.weekSunrise
      = some { hour := 6#5, minute := 0#6, second := none } ∧
    (after (.setweek true 24#5 0#6) State.reset).out.rspErr = true := by decide

/-- R207's worked example. -/
theorem test_setwknd : (after (.setwknd true 8#5 30#6) State.reset).clk.weekendSunrise
      = some { hour := 8#5, minute := 30#6, second := none } ∧
    (after (.setwknd true 8#5 60#6) State.reset).clk.weekendSunrise = none := by decide

/-- V139. -/
theorem test_rdreg : (after (.rdreg 0x0B#8) (peakState [])).out
      = { Outputs.idle with rspErr := true } ∧
    (after (.rdreg 0x0B#8) (peakState [])).dec = peaking [] := by decide

/-- A machine for the register vectors (V95, V101, V107 to V111). -/
def registers : State :=
  { withDec { peaking (.minuteEnd :: v7symbols.take 58) with
      latch := true, prevHeight := 15#8, lastSmp := some 5220#16, lastPeak := some 5220#16 } with
    clk := { datetime := some (v7time (some 15#6)), lastRadioSync := some (v7time none)
             lastBit := some .minuteEnd
             lasterr := some { kind := .missedPolledValue, info := 40#16 }
             phase := .default (some 4#5), dawnDuration := some 20#12
             weekSunrise := some { hour := 6#5, minute := 0#6, second := none }
             weekendSunrise := some { hour := 8#5, minute := 30#6, second := none } } }

theorem test_rdregCurDate : reads .rdregCurDate registers = 0x84170C07#32 := by decide
theorem test_rdregCurTime : reads .rdregCurTime registers = 0x808F1522#32 := by decide
theorem test_rdregSyncDate : reads .rdregSyncDate registers = 0x84170C07#32 := by decide
theorem test_rdregSyncTime : reads .rdregSyncTime registers = 0x80001522#32 := by decide
theorem test_rdregPhase : reads .rdregPhase registers = 0x00000480#32 ∧
    reads .rdregPhase (withClk { ClockAgg.reset with phase := .sunRise 10#12 }) = 0x000A0002#32 := by
  decide
theorem test_rdregLastbit : reads .rdregLastbit registers = 0x00000006#32 := by decide
/-- V97 and V98. -/
theorem test_rdregQuarters : reads .rdregQuarters (withClk { ClockAgg.reset with
      datetime := some (stampOf 23 12 8 5 6 0 (some 15#6)), lastRadioSync := some (v7time none) })
      = 0x80000021#32 ∧
    reads .rdregQuarters (withClk { ClockAgg.reset with
      datetime := some (stampOf 24 3 1 5 0 0 (some 0#6))
      lastRadioSync := some (stampOf 24 2 28 3 0 0 none) }) = 0x800000C0#32 := by decide
/-- V95, V96, V97b, V97c and V98c: the ends of the range. -/
theorem test_rdregQuarters_range :
    [(stampOf 23 12 30 6 15 41 none, v7time none), (stampOf 23 12 30 6 15 42 none, v7time none),
      (stampOf 23 12 7 4 21 33 none, v7time none), (v7time none, stampOf 23 12 30 6 15 42 none),
      (v7time none, stampOf 23 12 30 6 15 43 none),
      (stampOf 0 1 1 6 0 5 none, stampOf 99 12 31 4 23 50 none)].map
      (fun (a, b) => quartersWord (quarters (some a) (some b)))
    = [0x80000888#32, 0x00000000#32, 0x80000000#32, 0x80000000#32, 0x00000000#32, 0x00000000#32] := by
  decide
theorem test_rdregLasterr : reads .rdregLasterr registers = 0x81000028#32 := by decide
theorem test_rdregDawn : reads .rdregDawn registers = 0x00010014#32 := by decide
theorem test_rdregWeek : reads .rdregWeek registers = 0x00010600#32 := by decide
theorem test_rdregWknd : reads .rdregWknd registers = 0x0001081E#32 := by decide
theorem test_rdregDecstat : reads .rdregDecstat registers = 0x0F0132C8#32 := by decide
theorem test_rdregFbstat : reads .rdregFbstat registers = 0x0000003B#32 := by decide
theorem test_rdregSmpstamp : reads .rdregSmpstamp registers = 0x00011464#32 := by decide
theorem test_rdregPeakstamp : reads .rdregPeakstamp registers = 0x00011464#32 := by decide

/-! ### Internal operations -/

/-- V17 and V18. -/
theorem test_tick :
    (after (.tick true) { State.reset with hw := { HwClock.reset with timer := 65520#16 } }).hw.timer
      = 1#16 ∧
    (after (.tick true) State.reset).hw = { timer := 1#16, vote := 1, pub := none } := by decide
/-- R93's worked example, at its last tick. -/
theorem test_tick_publishes :
    (after (.tick false) { State.reset with hw := { timer := 19#16, vote := 3, pub := none } }).hw
      = { timer := 20#16, vote := 0, pub := some { stamp := 20#16, level := true } } := by decide
/-- V11, V12, V14, V15 and V16. -/
theorem test_tsub : (after (.tsub 20#16 65520#16) State.reset).stage = .delta 20 ∧
    (after (.tsub 500#16 65000#16) State.reset).stage = .delta 1020 ∧
    (after (.tsub 0#16 1#16) State.reset).stage = .delta 65519 ∧
    (after (.tsub 65520#16 0#16) State.reset).stage = .delta 65520 ∧
    (after (.tsub 4000#16 4020#16) State.reset).stage = .delta 65500 := by decide
theorem test_latestSample : (after .latestSample (peakState [])).stage
    = .sample (some { stamp := 5220#16, level := false }) := by decide
theorem test_currentTimer : (after .currentTimer (peakState [])).stage = .timer 5220#16 := by decide
/-- V27a and V27b. -/
theorem test_histShift :
    (after (.histShift true) (withDec { DecState.empty with wcount := 199#8 })).dec.w = 1#200 ∧
    (after (.histShift true) (withDec { DecState.empty with wcount := 199#8 })).dec.wcount = 200#8 ∧
    (after (.histShift false)
      (withDec { DecState.empty with w := 1#200 <<< 199, wcount := 200#8 })).dec.w = 0#200 := by decide
/-- V20, V21, V24, V25 and V27. -/
theorem test_corrScore : corrScore 0#200 = 160 ∧ corrScore (BitVec.allOnes 200) = 0 ∧
    corrScore 0x3FF0000000000FFC0000000003FF0000000000FFC00#200 = 120 ∧
    corrScore 0x1FF80000000007FE0000000001FF80000000007FE0#200 = 140 ∧
    corrScore (1#200 <<< 199) = 159 := by decide +kernel
/-- V29, from the ring that V28 to V28c leave. -/
theorem test_phaseStep :
    (after (.phaseStep 156#8) (withDec { DecState.empty with
      s := ring 47 130 ++ [134#8, 138#8, 156#8], prevHeight := 21#8 })).stage = .peak true ∧
    (after (.phaseStep 156#8) (withDec { DecState.empty with
      s := ring 47 130 ++ [134#8, 138#8, 156#8], prevHeight := 21#8 })).dec.prevHeight = 20#8 := by
  decide
/-- V31c and V33. -/
theorem test_phaseStep_latch :
    (after (.phaseStep 105#8) (withDec { DecState.empty with
      s := ring 47 100 ++ [120#8, 110#8, 115#8], prevHeight := 10#8, latch := true })).dec.latch
      = false ∧
    (after (.phaseStep 255#8) (withDec { DecState.empty with s := ring 48 100 })).dec.prevHeight
      = 0#8 := by decide
/-- V34. -/
theorem test_bitClassify_spacing :
    (after (.bitClassify 6100#16) (withDec { peaking [] with lastPeak := some 5220#16 })).stage
      = .raised { kind := .lastPeakTooClose, info := 880#16 } ∧
    (after (.bitClassify 6100#16) (withDec { peaking [] with lastPeak := some 5220#16 })).dec
      = DecState.empty := by decide
/-- V38 with V39b and V39d. -/
theorem test_bitClassify_symbol :
    (after (.bitClassify 500#16) (withDec { DecState.empty with
      w := 0x7C0#200, lastPeak := some 65000#16 })).stage = .symbol .low ∧
    (after (.bitClassify 500#16) (withDec { DecState.empty with
      w := 0x801#200, lastPeak := some 65000#16 })).stage = .symbol .minuteEnd := by decide
/-- V40 to V43. -/
theorem test_framePush :
    [([], Symbol.low), ([], .minuteEnd), ([.minuteEnd], .high), ([.minuteEnd, .low], .minuteEnd)].map
      (fun (fb, sym) => (after (.framePush sym) (withDec { DecState.empty with fb := fb })).dec.fb)
    = [[], [.minuteEnd], [.minuteEnd, .high], [.minuteEnd, .low, .minuteEnd]] := by decide
/-- V44, with the symbols of V7. -/
theorem test_frameExtract :
    (after .frameExtract (withDec { DecState.empty with fb := .minuteEnd :: v7symbols })).stage
      = .frame (some v7frame) false ∧
    (after .frameExtract (withDec { DecState.empty with fb := .minuteEnd :: v7symbols })).dec.fb
      = [] := by decide
/-- V45 and V47. -/
theorem test_frameExtract_abort :
    (after .frameExtract (withDec { DecState.empty with
      fb := [.minuteEnd, .low, .minuteEnd] ++ List.replicate 57 .high })).dec.fb
      = List.replicate 57 .high ∧
    (after .frameExtract (withDec { DecState.empty with
      fb := .minuteEnd :: (List.replicate 58 .high ++ [.minuteEnd]) })).stage = .frame none true := by
  decide
/-- V50 to V61: the structural checks on the frame of V7. -/
theorem test_protoDecode : protoDecode v7frame = .ok (v7time none) ∧
    protoDecode 0#59 = .error { kind := .badStartOfTime, info := 0#16 } ∧
    protoDecode (BitVec.allOnes 59) = .error { kind := .badStartOfMinute, info := 0#16 } ∧
    protoDecode (flipBit v7frame 17) = .error { kind := .summerTime, info := 3#16 } ∧
    protoDecode (flipBit v7frame 22) = .error { kind := .minuteParity, info := 0#16 } := by
  decide
/-- V62 to V70: the six ranges, on frames with their parities in order. -/
theorem test_protoDecode_ranges :
    [stampOf 23 12 7 4 21 60 none, stampOf 23 12 7 4 24 34 none, stampOf 23 12 0 4 21 34 none,
      stampOf 23 12 7 0 21 34 none, stampOf 23 13 7 4 21 34 none, stampOf 100 12 7 4 21 34 none].map
      (fun dt => protoDecode (encodeFrame dt false 0#17))
    = [.error { kind := .minuteRange, info := 60#16 }, .error { kind := .hourRange, info := 24#16 },
      .error { kind := .dayRange, info := 0#16 }, .error { kind := .weekdayRange, info := 0#16 },
      .error { kind := .monthRange, info := 13#16 }, .error { kind := .yearRange, info := 100#16 }] := by
  decide +kernel
/-- V79, V81 and V82. -/
theorem test_decPoll_missed :
    (after (.decPoll (some { stamp := 4060#16, level := true }))
      (withDec { peaking [] with lastSmp := some 4020#16 })).clk.lasterr
      = some { kind := .missedPolledValue, info := 40#16 } ∧
    (after (.decPoll (some { stamp := 4000#16, level := false }))
      (withDec { peaking [] with lastSmp := some 4020#16 })).clk.lasterr
      = some { kind := .missedPolledValue, info := 65500#16 } := by decide
/-- V83 and V80. -/
theorem test_decPoll_accepts :
    (after (.decPoll (some { stamp := 12345#16, level := true })) State.reset).dec
      = { DecState.empty with w := 1#200, wcount := 1#8, lastSmp := some 12345#16 } ∧
    (after (.decPoll (some { stamp := 20#16, level := false }))
      (withDec { DecState.empty with lastSmp := some 65520#16 })).dec.lastSmp = some 20#16 := by
  decide
/-- R176's worked example. -/
theorem test_decResync : (after (.decResync { kind := .badBit, info := 11#16 }) registers).dec
      = DecState.empty ∧
    reads .rdregLasterr (after (.decResync { kind := .badBit, info := 11#16 }) registers)
      = 0x8400000B#32 := by decide
/-- V100. -/
theorem test_rtcWrite :
    (after (.rtcWrite (v7time none)) State.reset).out.rtcWdata = 0x23120704213400#56 ∧
    (after (.rtcWrite (v7time none)) State.reset).out.rtcWsecValid = false := by decide
/-- V101 to V103. -/
theorem test_rtcRead : [0x23120704213415#56, 0x99123107235959#56, 0x00010101000000#56].map
      unpackDatetime
    = [some (v7time (some 15#6)), some (stampOf 99 12 31 7 23 59 (some 59#6)),
      some (stampOf 0 1 1 1 0 0 (some 0#6))] := by decide
/-- V104 to V104e. -/
theorem test_unpack_none : [0x23120704216000#56, 0x2312070421341A#56, 0x23120704923415#56,
      0x23120704243415#56, 0x23120700213415#56, 0x23120708213415#56, 0x23130704213415#56,
      0x23123204213415#56, 0x23120004213415#56, 0xA0010101000000#56, 0x23120704213460#56].map
      unpackDatetime = List.replicate 11 none := by decide
/-- V105. -/
theorem test_rtcRead_failed :
    (after .rtcRead { State.reset with
      clk := registers.clk, rtc := { wack := false, rok := false, rdata := 0x23120704213415#56 } }).clk.datetime
      = none := by decide

/-- The phase an evaluation leaves, on the weekday `wd`, day `d`, at `h:mi`, with the dawn duration, the
week's and the weekend's sunrise of the vectors. -/
def evaluated (before : Phase) (dawn : Option Minutes) (week weekend : Option Time) (wd d h mi : Nat) :
    Phase :=
  (after .phaseEval (withClk { ClockAgg.reset with
    datetime := some (stampOf 23 12 d wd h mi (some 0#6)), phase := before, dawnDuration := dawn
    weekSunrise := week, weekendSunrise := weekend })).clk.phase

def sunriseAt (h m : Nat) : Option Time :=
  some { hour := BitVec.ofNat 5 h, minute := BitVec.ofNat 6 m, second := none }

/-- V85 to V91. -/
theorem test_phaseEval :
    [evaluated (.default none) (some 20#12) (sunriseAt 6 0) none 1 4 5 39,
      evaluated (.default none) (some 20#12) (sunriseAt 6 0) none 1 4 5 40,
      evaluated (.dawn 19#12) (some 20#12) (sunriseAt 6 0) none 1 4 6 0,
      evaluated (.default (some 4#5)) (some 20#12) (sunriseAt 6 0) none 1 4 6 10,
      evaluated (.default (some 4#5)) (some 20#12) (sunriseAt 6 0) none 2 5 6 10,
      evaluated (.default none) none (sunriseAt 6 0) none 1 4 5 59]
    = [.default none, .dawn 0#12, .sunRise 0#12, .default (some 4#5), .sunRise 10#12, .default none] := by
  decide
/-- V92 to V93c. -/
theorem test_phaseEval_corners :
    [evaluated (.default none) none (sunriseAt 6 0) none 6 9 7 0,
      evaluated (.default none) none none (sunriseAt 8 30) 7 10 8 31,
      evaluated (.default none) none none (sunriseAt 8 30) 5 8 9 0,
      evaluated (.sunRise 1079#12) (some 20#12) (sunriseAt 6 0) none 2 5 0 0,
      evaluated (.sunRise 1079#12) (some 400#12) (sunriseAt 6 0) none 2 5 0 0,
      evaluated (.default none) (some 0#12) (sunriseAt 6 0) none 2 5 5 59,
      evaluated (.default none) none (sunriseAt 23 50) none 2 5 0 5]
    = [.default none, .sunRise 1#12, .default none, .sunRise 1079#12, .dawn 40#12, .default none,
      .default none] := by decide
/-- R260. -/
theorem test_reset : (after .reset registers).dec = DecState.empty ∧
    (after .reset registers).clk = ClockAgg.reset := by decide

/-! ### Witnesses: states and operands that meet the hypotheses of the statements -/

theorem witness_DecodeOfEncode : encode (.setweek true 23#5 59#6) = some 0x1101173B#32 ∧
    encode (.rdreg 0x14#8) = some 0x20000014#32 := by decide
theorem witness_DecodeOfEncode_not_rdreg : ∀ r, Instr.ack ≠ .rdreg r := by
  intro r h
  cases h
theorem witness_EncodeOfDecode : decode 0x11001F3F#32 = .ok (.setweek false 31#5 63#6) := by decide
/-- Each case of R70 at its edge, and the legal words beside them. -/
theorem witness_CommandWordRefused :
    [0x03000000#32, 0xFFFFFFFF#32, 0x00000001#32, 0x02800000#32, 0x10020000#32, 0x10001000#32,
      0x11000040#32, 0x12002000#32, 0x11011800#32, 0x1201003C#32, 0x20000100#32, 0x2000000B#32,
      0x2000000F#32, 0x20000014#32].map (fun w => decide (IllegalWord w)) = List.replicate 14 true ∧
    [0x00000000#32, 0x10010FFF#32, 0x11001F3F#32, 0x1101173B#32, 0x1201003B#32, 0x2000000A#32,
      0x20000010#32, 0x20000013#32].map (fun w => decide (IllegalWord w)) = List.replicate 8 false := by
  decide
theorem witness_CommandWordRefused_inbox :
    (withInbox [.host 0x03000000#32]).inbox = .host 0x03000000#32 :: [] := by decide
theorem witness_StepRunsTheNextEvent : ∀ e : Event, (withInbox [e]).inbox = e :: [] := fun _ => rfl
theorem witness_StepRunsTheNextEvent_idle : (withInbox []).inbox = [] := rfl
theorem witness_RdregReadsOrRefuses :
    (∀ r ∈ [0x00#8, 0x0A#8, 0x10#8, 0x13#8], registerDefined r = true) ∧
    (∀ r ∈ [0x0B#8, 0x0F#8, 0x14#8, 0xFF#8], registerDefined r = false) := by decide
theorem witness_Tick : State.reset.hw.timer.toNat ≤ 65520 ∧ (65520#16 : Timer).toNat ≤ 65520 := by decide
theorem witness_TimerSubtraction : (20#16 : Timer).toNat ≤ 65520 ∧ (65520#16 : Timer).toNat ≤ 65520 ∧
    (65520#16 : Timer) ≠ 0#16 ∧ 20 < 65520 ∧ timerNext^[20] 65520#16 = 20#16 := by decide
theorem witness_TimerSubtraction_clauses :
    (20#16 : Timer).toNat ≤ (20#16 : Timer).toNat ∧ (20#16 : Timer).toNat < (21#16 : Timer).toNat := by
  decide
/-- V19a: eleven of twenty, from 65500 and from 65520. -/
theorem witness_OnePeriod :
    let pins := List.replicate 11 true ++ List.replicate 9 false
    let s : State := { withInbox (pins.map Event.tick) with
      hw := { timer := 65520#16, vote := 0, pub := none } }
    pins.length = 20 ∧ s.inbox = pins.map Event.tick ++ [] ∧ s.hw.timer.toNat ≤ 65520 ∧
    s.hw.timer.toNat % 20 = 0 ∧ s.hw.vote = 0 := by decide
theorem witness_HistShift : (1 ≤ 1 ∧ 1 < 200) ∧ (1 ≤ 199 ∧ 199 < 200) := by decide
theorem witness_CorrScore : (withDec { DecState.empty with wcount := 199#8 }).dec.wcount.toNat < 200 ∧
    (withDec (peaking [])).dec.wcount.toNat = 200 := by decide
theorem witness_PhaseStep : (withDec { DecState.empty with s := ring 48 100 }).dec.s.length < 50 ∧
    (after (.phaseStep 100#8) (withDec { DecState.empty with s := ring 48 100 })).dec.s.length < 50 ∧
    (after (.phaseStep 100#8) (withDec { DecState.empty with s := ring 49 100 })).dec.s.length = 50 ∧
    (withDec (peaking [])).dec.s.length = 50 := by decide
theorem witness_ConstantScores : (∀ x ∈ (withDec { peaking [] with prevHeight := 0#8 }).dec.s, x = 100#8) ∧
    (withDec { peaking [] with prevHeight := 0#8 }).dec.prevHeight = 0#8 := by decide
/-- V31 to V31c: one peak between two heights of 0. -/
theorem witness_AtMostOnePeak :
    peakTrace { peaking [] with prevHeight := 0#8 } [120#8, 110#8, 115#8, 105#8]
      = [(false, 15#8), (true, 5#8), (false, 10#8)] ++ [(false, 0#8)] ∧
    (∀ p ∈ [(false, 15#8), (true, 5#8), (false, 10#8)], p.2 ≠ 0#8) := by decide +kernel
/-- The edges of the bands of R122, and a count that 16 bits just hold. -/
theorem witness_Classify : 2 ≤ 2 ∧ (3 ≤ 3 ∧ 3 ≤ 6) ∧ (3 ≤ 6 ∧ 6 ≤ 6) ∧ (7 ≤ 7 ∧ 7 ≤ 10) ∧
    (7 ≤ 10 ∧ 10 ≤ 10) ∧ (11 ≤ 11 ∧ 11 < 65536) ∧ (11 ≤ 65535 ∧ 65535 < 65536) := by decide
/-- V34 to V37. -/
theorem witness_BitClassify : timerSub 6100#16 5220#16 < 900 ∧ 900 ≤ timerSub 6120#16 5220#16 ∧
    timerSub 6320#16 5220#16 ≤ 1100 ∧ 1100 < timerSub 6340#16 5220#16 := by decide
theorem witness_BitClassify_peak :
    (withDec { peaking [] with lastPeak := some 5220#16 }).dec.lastPeak = some 5220#16 ∧
    ∀ p, (withDec { peaking [] with lastPeak := some 5220#16 }).dec.lastPeak = some p →
      900 ≤ timerSub 6120#16 p ∧ timerSub 6120#16 p ≤ 1100 := by
  refine ⟨rfl, ?_⟩
  intro p h
  cases h
  decide
theorem witness_BadBit :
    let s := withClk { ClockAgg.reset with lasterr := some { kind := .badBit, info := 11#16 } }
    nextOf (step s) = some s ∧ (stepped s).clk.lasterr = some { kind := .badBit, info := 11#16 } := by
  decide
theorem witness_FramePush :
    (withDec { DecState.empty with fb := .minuteEnd :: v7symbols.take 58 }).dec.fb.length ≤ 59 ∧
    Symbol.minuteEnd ∈ (.minuteEnd :: v7symbols.take 58) ++ [Symbol.high] ∧
    Symbol.minuteEnd ∉ ([] : List Symbol) ++ [Symbol.high] := by decide
theorem witness_FrameExtract : v7symbols.length = 59 ∧ Symbol.minuteEnd ∉ v7symbols ∧
    (withDec { DecState.empty with fb := .minuteEnd :: v7symbols }).dec.fb = .minuteEnd :: v7symbols := by
  decide
theorem witness_FrameExtract_abort :
    let before := [Symbol.low]
    let after := List.replicate 57 Symbol.high
    let s := withDec { DecState.empty with fb := .minuteEnd :: (before ++ .minuteEnd :: after) }
    s.dec.fb.length = 60 ∧ Symbol.minuteEnd ∉ before := by decide
theorem witness_FrameExtract_waits : (peaking (.minuteEnd :: v7symbols.take 58)).fb.length ≠ 60 ∧
    (peaking v7symbols).fb.head? ≠ some .minuteEnd := by decide
/-- An UPDATE with a symbol and no abort, and one without a symbol. -/
theorem witness_UpdateKeepsTheBuffer :
    (peakState [.minuteEnd]).dec.fb.length ≤ 59 ∧
    (after .update (peakState [.minuteEnd])).out.rspData.getLsbD 3 = true ∧
    (after .update (peakState [.minuteEnd])).out.rspData.getLsbD 11 = false ∧
    (after .update State.reset).out.rspData.getLsbD 3 = false := by decide +kernel
theorem witness_FrameRoundTrip : (stampOf 99 12 31 7 23 59 none).wf = true ∧
    (stampOf 99 12 31 7 23 59 none).time.second = none ∧ (stampOf 0 1 1 1 0 0 none).wf = true := by
  decide
theorem witness_SingleFlip : protoDecode v7frame = .ok (v7time none) := by decide
theorem witness_SingleFlip_clauses : (21 ≤ 21 ∧ 21 ≤ 28) ∧ (21 ≤ 28 ∧ 28 ≤ 28) ∧ (29 ≤ 29 ∧ 29 ≤ 35) ∧
    (29 ≤ 35 ∧ 35 ≤ 35) ∧ (36 ≤ 36 ∧ 36 ≤ 58) ∧ (36 ≤ 58 ∧ 58 ≤ 58) := by decide
/-- V73. -/
theorem witness_UnreadFrameBits : ∀ i, i < 59 → ¬ (1 ≤ i ∧ i ≤ 16) → i ≠ 19 →
    v7frame.getLsbD i = (v7frame ||| 0x9FFFE#59).getLsbD i := by decide
/-- V50 to V60: a frame for each structural check, with all the earlier ones in order. -/
theorem witness_ProtoStructure :
    (flipBit v7frame 20).getLsbD 20 = false ∧
    (v7frame.getLsbD 20 = true ∧ v7frame.getLsbD 0 = false ∧ v7frame.getLsbD 17 ≠ v7frame.getLsbD 18) ∧
    (flipBit v7frame 0).getLsbD 0 = true ∧
    ((flipBit v7frame 18).getLsbD 17 = false ∧ (flipBit v7frame 18).getLsbD 18 = false) ∧
    ((flipBit v7frame 17).getLsbD 17 = true ∧ (flipBit v7frame 17).getLsbD 18 = true) ∧
    oddOnes ((flipBit v7frame 28).extractLsb' 21 8) = true ∧
    (oddOnes (v7frame.extractLsb' 21 8) = false ∧ oddOnes ((flipBit v7frame 35).extractLsb' 29 7) = true) ∧
    (oddOnes (v7frame.extractLsb' 29 7) = false ∧
      oddOnes ((flipBit v7frame 58).extractLsb' 36 23) = true) := by decide

/-- The structure of a frame is in order. -/
def structureOk (fr : Frame) : Bool :=
  fr.getLsbD 20 && !fr.getLsbD 0 && (fr.getLsbD 17 ^^ fr.getLsbD 18) && !oddOnes (fr.extractLsb' 21 8)
    && !oddOnes (fr.extractLsb' 29 7) && !oddOnes (fr.extractLsb' 36 23)

/-- A frame for each range and for each of its edges. -/
theorem witness_ProtoRange :
    ∀ dt ∈ [stampOf 23 12 7 4 21 60 none, stampOf 23 12 7 4 21 59 none, stampOf 23 12 7 4 24 59 none,
      stampOf 23 12 7 4 23 59 none, stampOf 23 12 0 4 21 34 none, stampOf 23 12 1 4 21 34 none,
      stampOf 23 12 31 4 21 34 none, stampOf 23 12 7 0 21 34 none, stampOf 23 12 7 1 21 34 none,
      stampOf 23 0 7 4 21 34 none, stampOf 23 1 7 4 21 34 none, stampOf 23 12 7 4 21 34 none,
      stampOf 23 13 7 4 21 34 none, stampOf 99 12 7 4 21 34 none, stampOf 100 12 7 4 21 34 none],
      structureOk (encodeFrame dt true 0#17) = true ∧
      fieldValue (encodeFrame dt true 0#17) 21 27 = dt.time.minute.toNat ∧
      fieldValue (encodeFrame dt true 0#17) 29 34 = dt.time.hour.toNat ∧
      fieldValue (encodeFrame dt true 0#17) 36 41 = dt.date.day.toNat ∧
      fieldValue (encodeFrame dt true 0#17) 42 44 = dt.date.weekday.toNat ∧
      fieldValue (encodeFrame dt true 0#17) 45 49 = dt.date.month.toNat ∧
      fieldValue (encodeFrame dt true 0#17) 50 57 = dt.date.year.toNat := by decide +kernel
/-- V66: the day 32, which no Datetime holds. -/
theorem witness_ProtoRange_day32 :
    let fr := flipBit (flipBit (flipBit (flipBit v7frame 36) 38) 40) 41
    structureOk fr = true ∧ fieldValue fr 21 27 = 34 ∧ fieldValue fr 29 34 = 21 ∧
    fieldValue fr 36 41 = 32 ∧ protoDecode fr = .error { kind := .dayRange, info := 32#16 } := by
  decide
theorem witness_PollIgnores :
    (withDec { DecState.empty with lastSmp := some 4020#16 }).dec.lastSmp
      = some ({ stamp := 4020#16, level := true } : Sample).stamp := by decide
/-- V77 to V80. -/
theorem witness_PollChecksThePeriod : timerSub 4039#16 4020#16 < 20 ∧ (4039#16 : Timer) ≠ 4020#16 ∧
    20 < timerSub 4041#16 4020#16 ∧ timerSub 20#16 65520#16 = 20 ∧ (20#16 : Timer) ≠ 65520#16 := by decide
theorem witness_PollRunsTheStages :
    ∀ l, (withDec { peaking [] with lastSmp := some 5200#16 }).dec.lastSmp = some l →
      (5220#16 : Timer) ≠ l ∧ timerSub 5220#16 l = 20 := by
  intro l h
  cases h
  decide
/-- A run of every stage, one that ends at an abort, one that ends at the spacing error, and one without
a score. -/
theorem witness_PollRunsTheStages_runs :
    let sample : Sample := { stamp := 5220#16, level := false }
    let noted (d : DecState) : List StageOut := ((stagewise (withDec d) sample).1).drop 1
    [noted (peaking (.minuteEnd :: v7symbols.take 58)),
      noted (peaking (.minuteEnd :: .minuteEnd :: v7symbols.take 57)),
      noted { peaking [] with lastPeak := some 5000#16 }, noted DecState.empty]
    = [[.peak true, .symbol .high, .frame (some v7frame) false, .decoded (v7time none)],
      [.peak true, .symbol .high, .frame none true],
      [.peak true, .raised { kind := .lastPeakTooClose, info := 220#16 }], []] ∧
    (stagewise (withDec DecState.empty) sample).1 = [.score none] ∧
    (stagewise (withDec (peaking [])) sample).1.head?
      = some (.score (some (corrScore ((peaking []).fed sample).w))) := by
  decide +kernel
/-- DERR set by an UPDATE, and clear. -/
theorem witness_DecoderError :
    (after .update { withDec { peaking [] with lastSmp := some 5180#16 } with
      hw := { timer := 5220#16, vote := 0, pub := some { stamp := 5220#16, level := true } } }).out.rspData.getLsbD 6
      = true ∧ (after .update State.reset).out.rspData.getLsbD 6 = false := by decide
theorem witness_WindowThenRingFill :
    let samples := (List.range 248).map fun k =>
      ({ stamp := BitVec.ofNat 16 (20 * (k + 1)), level := false } : Sample)
    (withDec DecState.empty).dec = DecState.empty ∧ Consecutive samples ∧ samples.length ≤ 248 := by
  decide +kernel
theorem witness_SamePair :
    let s : State := { State.reset with hw := (peakState []).hw }
    nextOf (exec .update s) = some (after .update s) ∧ (after .update s).out.rspData.getLsbD 0 = true ∧
    (after .update s).out.rspData.getLsbD 6 = false := by decide
/-- An UPDATE that completes a frame, and one without a sample. -/
theorem witness_UpdateRunsItsSixSteps :
    let s := peakState (.minuteEnd :: v7symbols.take 58)
    s.decPoll s.hw.pub = ((s.decPoll s.hw.pub).1, (s.decPoll s.hw.pub).2) ∧
    (s.decPoll s.hw.pub).1.symbol = some .high ∧
    (s.decPoll s.hw.pub).1.outcome = .synced (v7time none) ∧
    (State.reset.decPoll State.reset.hw.pub).1 = Poll.none := by decide +kernel
/-- An UPDATE for each clause on errors: MissedPolledValue, a spacing error, a frame that breaks a rule. -/
theorem witness_StatusWord :
    let shown (d : DecState) : Word := (after .update { peakState [] with dec := d }).out.rspData &&& 0xDFF#32
    [shown { DecState.empty with lastSmp := some 5180#16 },
      shown { peaking [] with lastSmp := some 5200#16, lastPeak := some 5000#16 },
      shown (peaking (.minuteEnd :: List.replicate 58 .low))] = [0x040#32, 0x047#32, 0x05F#32] := by
  decide +kernel
/-- A status word with bits 0 to 5, 7, 8 and 9, one with FABORT, one with DERR alone, one with PHCHG. -/
theorem witness_StatusBits :
    (after .update (peakState (.minuteEnd :: v7symbols.take 58))).out.rspData = 0x3BF#32 ∧
    (after .update (peakState (.minuteEnd :: .minuteEnd :: v7symbols.take 57))).out.rspData = 0xA0F#32 ∧
    (after .update { peakState [] with
      clk := { ClockAgg.reset with weekSunrise := sunriseAt 21 34 } }).out.rspData = 0x60F#32 := by
  decide +kernel
theorem witness_RtcRead : (peakState []).rtc.rok = true ∧ State.reset.rtc.rok = false := by decide
theorem witness_RtcWrite : (v7time none).wf = true ∧ (v7time none).time.second = none ∧
    (v7time (some 59#6)).wf = true ∧ (v7time (some 59#6)).time.second = some 59#6 := by decide
theorem witness_UnpackOfPack : (v7time (some 59#6)).wf = true ∧
    (v7time (some 59#6)).time.second.isSome = true := by decide
/-- For PhaseFollows: the guard's day; `e = 0`; `e = -1` with `e + D = 0`; `e = -2` with `e + D = -1`. -/
theorem witness_PhaseEval :
    (withClk { ClockAgg.reset with datetime := some (v7time (some 0#6)) }).clk.datetime
      = some (v7time (some 0#6)) ∧ State.reset.clk.datetime = none ∧
    elapsedMinutes (stampOf 23 12 4 1 6 0 none) { hour := 6#5, minute := 0#6, second := none } = 0 ∧
    elapsedMinutes (stampOf 23 12 4 1 5 59 none) { hour := 6#5, minute := 0#6, second := none }
      + (1#12 : Minutes).toNat = 0 ∧
    elapsedMinutes (stampOf 23 12 4 1 5 58 none) { hour := 6#5, minute := 0#6, second := none }
      + (1#12 : Minutes).toNat = -1 := by decide
theorem witness_PhaseTransition :
    (withInbox [.host 0x20000004#32]).inbox = .host 0x20000004#32 :: [] ∧
    0x20000004#32 ≠ 0x01000000#32 ∧ 0x20000004#32 ≠ 0x02000000#32 ∧
    (withInbox [.rst]).inbox = .rst :: [] ∧
    (after .update (peakState [])).clk.datetime = some (v7time (some 0#6)) ∧
    (after .update State.reset).clk.datetime = none := by decide +kernel
theorem witness_AckSuppresses :
    let s := withClk { ClockAgg.reset with datetime := some (v7time (some 0#6)) }
    let u : State := { after .ack s with rtc := (peakState []).rtc }
    s.clk.datetime = some (v7time (some 0#6)) ∧ nextOf (exec .ack s) = some (after .ack s) ∧
    u.clk.phase = (after .ack s).clk.phase ∧ u.rtc.rok = true ∧
    unpackDatetime u.rtc.rdata = some (v7time (some 0#6)) ∧
    (v7time (some 0#6)).date.day = (v7time (some 0#6)).date.day := by decide
theorem witness_SetSunrise : ((23#5 : BitVec 5).toNat ≤ 23 ∧ (59#6 : BitVec 6).toNat ≤ 59) ∧
    23 < (24#5 : BitVec 5).toNat ∧ 59 < (60#6 : BitVec 6).toNat := by decide
theorem witness_DatetimeRegisters : registers.clk.datetime = some (v7time (some 15#6)) ∧
    registers.clk.lastRadioSync = some (v7time none) ∧ State.reset.clk.datetime = none ∧
    (v7time (some 15#6)).time.second = some 15#6 ∧ (v7time none).time.second = none := by decide
theorem witness_PhaseRegister : State.reset.clk.phase = .default none ∧
    registers.clk.phase = .default (some 4#5) ∧
    (withClk { ClockAgg.reset with phase := .dawn 4094#12 }).clk.phase = .dawn 4094#12 ∧
    (withClk { ClockAgg.reset with phase := .sunRise 1439#12 }).clk.phase = .sunRise 1439#12 := by decide
theorem witness_DiagnosticRegisters : registers.dec.sfill ≤ 50 ∧ registers.dec.fbLen ≤ 60 ∧
    registers.clk.lastBit = some .minuteEnd ∧ registers.dec.lastSmp = some 5220#16 ∧
    registers.dec.lastPeak = some 5220#16 ∧
    registers.clk.lasterr = some { kind := .missedPolledValue, info := 40#16 } ∧
    quarters registers.clk.datetime registers.clk.lastRadioSync = some 0 ∧
    (State.reset.dec.sfill ≤ 50 ∧ State.reset.dec.fbLen ≤ 60 ∧ State.reset.clk.lastBit = none ∧
      State.reset.clk.lasterr = none ∧ State.reset.dec.lastSmp = none ∧
      State.reset.dec.lastPeak = none ∧
      quarters State.reset.clk.datetime State.reset.clk.lastRadioSync = none) := by decide
theorem witness_DiagnosticRegisters_lastbit :
    (withClk { ClockAgg.reset with lastBit := some .low }).clk.lastBit = some .low ∧
    (withClk { ClockAgg.reset with lastBit := some .high }).clk.lastBit = some .high := by decide
theorem witness_ConfigurationRegisters : registers.clk.dawnDuration = some 20#12 ∧
    registers.clk.weekSunrise = sunriseAt 6 0 ∧ registers.clk.weekendSunrise = sunriseAt 8 30 ∧
    State.reset.clk.dawnDuration = none ∧ State.reset.clk.weekSunrise = none ∧
    State.reset.clk.weekendSunrise = none := by decide
theorem witness_ConfigurationReadsBack :
    ∀ wr ∈ [(0x10010FFF#32, 0x20000008#32, 0x10#8), (0x1101173B#32, 0x20000009#32, 0x11#8),
      (0x12001F3F#32, 0x2000000A#32, 0x12#8)],
      ¬ IllegalWord wr.1 ∧ wr.1.extractLsb' 24 8 = wr.2.2 ∧
      (withInbox [.host wr.1, .host wr.2.1]).inbox = .host wr.1 :: .host wr.2.1 :: [] := by decide
/-- The edges of the difference: 0, -1, 32767, 32768, -32768, -32769 (V95 to V97c). -/
theorem witness_Quarters :
    [(v7time none, v7time none), (stampOf 23 12 7 4 21 33 none, v7time none),
      (stampOf 23 12 30 6 15 41 none, v7time none), (stampOf 23 12 30 6 15 42 none, v7time none),
      (v7time none, stampOf 23 12 30 6 15 42 none), (v7time none, stampOf 23 12 30 6 15 43 none)].map
      (fun ab => (minuteDifference ab.1 ab.2, ab.1.wf && ab.2.wf))
    = [(0, true), (-1, true), (32767, true), (32768, true), (-32768, true), (-32769, true)] := by decide
theorem witness_Quarters_months :
    [0, 31, 59, 90, 120, 151, 181, 212, 243, 273, 304, 334][1 - 1]? = some 0 ∧
    [0, 31, 59, 90, 120, 151, 181, 212, 243, 273, 304, 334][(v7time none).date.month.toNat - 1]?
      = some 334 := by decide
theorem witness_StepKeepsTheInvariant : (withInbox [.host 0x01000000#32]).Inv ∧
    nextOf (step (withInbox [.host 0x01000000#32])) = some (stepped (withInbox [.host 0x01000000#32])) :=
  ⟨by decide, by decide⟩
theorem witness_EveryField :
    (withInbox [.host 0x12010000#32]).inbox = .host 0x12010000#32 :: [] ∧
    nextOf (step (withInbox [.host 0x12010000#32])) = some (stepped (withInbox [.host 0x12010000#32])) ∧
    Event.host 0x12010000#32 ≠ .rst ∧ Event.host 0x12010000#32 ≠ .host 0x01000000#32 ∧
    Event.host 0x12010000#32 ≠ .host 0x02000000#32 ∧ Event.host 0x12010000#32 ≠ .rstClock ∧
    0x12010000#32 ≠ 0x01000000#32 ∧ (0x12010000#32 : Word).extractLsb' 24 8 ≠ 0x10#8 ∧
    (0x12010000#32 : Word).extractLsb' 24 8 ≠ 0x11#8 ∧
    (0x02000000#32 : Word).extractLsb' 24 8 ≠ 0x12#8 := by decide
/-- A tick, for the clauses on ports that a tick does not write. -/
theorem witness_EveryField_tick :
    nextOf (step (withInbox [.tick true])) = some (stepped (withInbox [.tick true])) ∧
    Event.tick true ≠ .rst ∧ (∀ w, Event.tick true ≠ .host w) ∧ (∀ a, Event.tick true ≠ .rtc a) ∧
    (∀ pin, Event.host 0x01000000#32 ≠ .tick pin) ∧ (∀ p, Event.host 0x01000000#32 ≠ .smp p) := by
  refine ⟨by decide, ?_, ?_, ?_, ?_, ?_⟩
  · intro h
    cases h
  all_goals
    intro x h
    cases h
theorem witness_QuietInput :
    ∀ e ∈ [Event.tick false, .host 0x01000000#32, .rst, .rstClock,
      .rtc { wack := true, rok := true, rdata := 0#56 }, .smp (some { stamp := 20#16, level := false })],
      Event.quiet e = true := by decide
theorem witness_QuietInput_step :
    let s : State := { withInbox [.host 0x01000000#32] with
      dec := { DecState.empty with wcount := 200#8, s := ring 50 160 } }
    s.Quiet ∧ nextOf (step s) = some (stepped s) := by
  refine ⟨?_, by decide⟩
  decide +kernel

end Sys2Proof.Tests
end

namespace Sys2Proof.Machine

/-! ### What the next event is, and what a step makes of it (R5, R6, R49; entries 1, 2) -/

theorem fetch_nil {s : State} (h : s.inbox = []) : s.fetch = .settled s := by
  simp only [State.fetch, h]

theorem fetch_cons {s : State} {e : Event} {rest : List Event} (h : s.inbox = e :: rest) :
    s.fetch = (s.took rest).deliver e := by
  simp only [State.fetch, h, State.took]

theorem deliver_host_of_decode {w : Word} {i : Instr} (s : State) (h : decode w = .ok i) :
    s.deliver (.host w) = .run i s := by
  simp only [State.deliver, State.hostCommand, h]

theorem step_of_fetch_run {s s' : State} {i : Instr} (h : s.fetch = .run i s') :
    step s = exec i s' := by
  simp only [step, h]

theorem step_of_fetch_settled {s s' : State} (h : s.fetch = .settled s') : step s = .next s' := by
  simp only [step, h]

/-- Settles O4: what each kind of event is delivered as says whether the step runs an operation or
settles at once. -/
theorem stepRunsTheNextEvent : Obligations.StepRunsTheNextEvent := by
  intro s rest
  refine ⟨?host, ?tick, ?rst, ?rstClock, ?rtc, ?smp, ?idle⟩
  case host =>
    intro w i hin hdecode
    exact step_of_fetch_run ((fetch_cons hin).trans (deliver_host_of_decode _ hdecode))
  case tick => exact fun _ hin => step_of_fetch_run (fetch_cons hin)
  case rst => exact fun hin => step_of_fetch_run (fetch_cons hin)
  case rstClock => exact fun hin => step_of_fetch_settled (fetch_cons hin)
  case rtc => exact fun _ hin => step_of_fetch_settled (fetch_cons hin)
  case smp => exact fun _ hin => step_of_fetch_settled (fetch_cons hin)
  case idle => exact fun hin => step_of_fetch_settled (fetch_nil hin)

end Sys2Proof.Machine

namespace Sys2Proof.Machine

/-! ### The reset state (R31, R261) -/

theorem regRead_reset (r : Reg) : State.reset.regRead r = 0#32 := by
  cases r <;> rfl

/-- Settles O54: the fields are those of the definitions of the reset values, and the registers are read
one by one. -/
theorem resetValues : Obligations.ResetValues :=
  ⟨rfl, rfl, rfl, ⟨rfl, rfl, rfl, rfl, rfl⟩, regRead_reset⟩

theorem DecState.empty_inv : DecState.empty.Inv := by decide

theorem ClockAgg.reset_inv : ClockAgg.reset.Inv := by decide

theorem HwClock.reset_inv : HwClock.reset.Inv := by decide

/-- Settles O57: each block's reset value has its part of the invariant. -/
theorem resetHasTheInvariant : Obligations.ResetHasTheInvariant :=
  ⟨DecState.empty_inv, ClockAgg.reset_inv, HwClock.reset_inv, rfl⟩

/-! ### The HardwareClock keeps its invariant (R90, R92, R93) -/

@[simp] theorem HwClock.tick_timer (h : HwClock) (pin : Bool) :
    (h.tick pin).timer = timerNext h.timer := by
  simp only [HwClock.tick]
  split <;> rfl

theorem HwClock.tick_vote (h : HwClock) (pin : Bool) :
    (h.tick pin).vote =
      if (timerNext h.timer).toNat % 20 = 0 then 0 else h.vote + (if pin then 1 else -1) := by
  simp only [HwClock.tick]
  split <;> rfl

theorem HwClock.tick_inv {h : HwClock} (pin : Bool) (hi : h.Inv) : (h.tick pin).Inv := by
  obtain ⟨htimer, hvote⟩ := hi
  have hnext := timerNext_toNat htimer
  have hsign : (if pin then (1 : Int) else -1).natAbs = 1 := by cases pin <;> rfl
  have hsum := Int.natAbs_add_le h.vote (if pin then 1 else -1)
  refine ⟨?timer, ?vote⟩
  case timer =>
    rw [HwClock.tick_timer, hnext]
    split <;> omega
  case vote =>
    rw [HwClock.tick_vote, HwClock.tick_timer]
    split
    · exact Nat.zero_le _
    · split at hnext <;> omega

/-! ### Values in range: Dates, Times and what is made of numbers (R19) -/

theorem date_wf_iff (d : Date) :
    d.wf = true ↔ 1 ≤ d.day.toNat ∧ 1 ≤ d.month.toNat ∧ d.month.toNat ≤ 12 ∧ d.year.toNat ≤ 99 ∧
      1 ≤ d.weekday.toNat := by
  simp [Date.wf, and_assoc]

theorem time_wf_iff (t : Time) :
    t.wf = true ↔ t.hour.toNat ≤ 23 ∧ t.minute.toNat ≤ 59 ∧ ∀ sec ∈ t.second, sec.toNat ≤ 59 := by
  cases h : t.second <;> simp [Time.wf, h, and_assoc]

theorem datetime_wf_iff (dt : Datetime) : dt.wf = true ↔ dt.date.wf = true ∧ dt.time.wf = true := by
  simp [Datetime.wf]

theorem Time.minuteOfDay_le {t : Time} (h : t.wf = true) : t.minuteOfDay ≤ 1439 := by
  obtain ⟨hhour, hminute, -⟩ := (time_wf_iff t).mp h
  unfold Time.minuteOfDay
  omega

theorem date_wf_ofNat {day month year weekday : Nat} (hday : 1 ≤ day ∧ day ≤ 31)
    (hmonth : 1 ≤ month ∧ month ≤ 12) (hyear : year ≤ 99) (hweekday : 1 ≤ weekday ∧ weekday ≤ 7) :
    Date.wf { day := BitVec.ofNat 5 day, month := BitVec.ofNat 4 month,
              year := BitVec.ofNat 7 year, weekday := BitVec.ofNat 3 weekday } = true := by
  simp only [date_wf_iff, BitVec.toNat_ofNat]
  omega

theorem time_wf_ofNat {hour minute : Nat} {second : Option (BitVec 6)} (hhour : hour ≤ 23)
    (hminute : minute ≤ 59) (hsecond : ∀ sec ∈ second, sec.toNat ≤ 59) :
    Time.wf { hour := BitVec.ofNat 5 hour, minute := BitVec.ofNat 6 minute, second := second }
      = true := by
  simp only [time_wf_iff, BitVec.toNat_ofNat]
  exact ⟨by omega, by omega, hsecond⟩

/-! ### The protocol decoder answers a Datetime in range, without a second (R147 to R153) -/

theorem rangeError_eq_none {minute hour day weekday month year : Nat}
    (h : rangeError minute hour day weekday month year = none) :
    minute ≤ 59 ∧ hour ≤ 23 ∧ (1 ≤ day ∧ day ≤ 31) ∧ 1 ≤ weekday ∧ (1 ≤ month ∧ month ≤ 12) ∧
      year ≤ 99 := by
  unfold rangeError at h
  split_ifs at h
  omega

/-- The weekday's three bits weigh 1, 2 and 4 (R63), so the decoder needs no upper check (R150). -/
theorem fieldValue_weekday_le (fr : Frame) : fieldValue fr 42 44 ≤ 7 := by
  have h42 := Bool.toNat_le fr[42]
  have h43 := Bool.toNat_le fr[43]
  have h44 := Bool.toNat_le fr[44]
  simp [fieldValue, weights]
  omega

theorem protoDecode_eq_ok {fr : Frame} {dt : Datetime} (h : protoDecode fr = .ok dt) :
    rangeError (fieldValue fr 21 27) (fieldValue fr 29 34) (fieldValue fr 36 41)
        (fieldValue fr 42 44) (fieldValue fr 45 49) (fieldValue fr 50 57) = none ∧
      dt = decodedDatetime (fieldValue fr 21 27) (fieldValue fr 29 34) (fieldValue fr 36 41)
        (fieldValue fr 42 44) (fieldValue fr 45 49) (fieldValue fr 50 57) := by
  unfold protoDecode at h
  split at h
  · cases h
  · simp only at h
    split at h
    · cases h
    · next hrange =>
      injection h with h
      exact ⟨hrange, h.symm⟩

theorem protoDecode_second {fr : Frame} {dt : Datetime} (h : protoDecode fr = .ok dt) :
    dt.time.second = none := by
  obtain ⟨-, rfl⟩ := protoDecode_eq_ok h
  rfl

theorem protoDecode_wf {fr : Frame} {dt : Datetime} (h : protoDecode fr = .ok dt) :
    dt.wf = true := by
  obtain ⟨hrange, rfl⟩ := protoDecode_eq_ok h
  obtain ⟨hminute, hhour, hday, hweekday, hmonth, hyear⟩ := rangeError_eq_none hrange
  exact (datetime_wf_iff _).mpr
    ⟨date_wf_ofNat hday hmonth hyear ⟨hweekday, fieldValue_weekday_le fr⟩,
      time_wf_ofNat hhour hminute (by simp)⟩

/-! ### A read of the RTC yields a Datetime in range, with its second (R194, R195) -/

theorem unbcd_le {b : BitVec 8} (h : bcdOk b = true) : unbcd b ≤ 99 := by
  simp only [bcdOk, Bool.and_eq_true, decide_eq_true_eq] at h
  unfold unbcd
  omega

theorem unpackDatetime_wf {p : Payload} {dt : Datetime} (h : unpackDatetime p = some dt) :
    dt.wf = true ∧ dt.time.second.isSome = true := by
  unfold unpackDatetime at h
  split at h
  · next hbcd =>
    simp only at h
    split at h
    · next hrange =>
      simp only [Bool.and_eq_true] at hbcd
      obtain ⟨-, hyear⟩ := hbcd
      simp only [payloadInRange, Bool.and_eq_true, decide_eq_true_eq] at hrange
      obtain ⟨⟨⟨⟨⟨⟨⟨⟨hsecond, hminute⟩, hhour⟩, hweekday⟩, hweekday'⟩, hday⟩, hday'⟩, hmonth⟩,
        hmonth'⟩ := hrange
      injection h with h
      subst h
      refine ⟨(datetime_wf_iff _).mpr ⟨date_wf_ofNat ⟨hday, hday'⟩ ⟨hmonth, hmonth'⟩
        (unbcd_le hyear) ⟨hweekday, hweekday'⟩, time_wf_ofNat hhour hminute ?_⟩, rfl⟩
      intro sec hsec
      injection hsec with hsec
      subst hsec
      rw [BitVec.toNat_ofNat]
      omega
    · cases h
  · cases h

theorem RtcPort.reading_wf {p : RtcPort} {dt : Datetime} (h : p.reading = some dt) :
    dt.wf = true ∧ dt.time.second.isSome = true := by
  unfold RtcPort.reading at h
  split at h
  · exact unpackDatetime_wf h
  · cases h

/-! ### The phase stays in range (R198 to R204, R32 (f), (g)) -/

/-- A minute of the day is at most 1439, and a dawn that has begun but not reached sunrise is at most one
minute short of a duration of at most 4095. -/
theorem phaseAtElapsed_inRange {c : ClockAgg} {elapsed : Int} (hc : Phase.inRange c.phase = true)
    (he : elapsed ≤ 1439) : Phase.inRange (phaseAtElapsed c elapsed) = true := by
  unfold phaseAtElapsed
  split
  · simp only [Phase.inRange, BitVec.toNat_ofNat, decide_eq_true_eq]
    omega
  · split
    · exact hc
    · next dur _ =>
      have hdur := dur.isLt
      split
      · simp only [Phase.inRange, BitVec.toNat_ofNat, decide_eq_true_eq]
        omega
      · exact hc

theorem phaseAt_inRange {c : ClockAgg} {now : Datetime} (hc : Phase.inRange c.phase = true)
    (hnow : now.wf = true) : Phase.inRange (phaseAt c now) = true := by
  have htime := Time.minuteOfDay_le ((datetime_wf_iff now).mp hnow).2
  unfold phaseAt
  split
  · exact hc
  · split
    · exact hc
    · refine phaseAtElapsed_inRange hc ?_
      unfold elapsedMinutes
      omega

theorem ClockAgg.phaseAfter_inRange {c : ClockAgg} (hc : c.Inv) :
    Phase.inRange c.phaseAfter = true := by
  obtain ⟨hdatetime, -, hphase, -, -⟩ := hc
  unfold ClockAgg.phaseAfter
  split
  · exact hphase
  · next now hnow => exact phaseAt_inRange hphase (hdatetime now hnow).1

/-- The day ACK stores is the day of a Date, so at least 1 (R204, R32 (f)). -/
theorem ackPhase_inRange {c : ClockAgg} (hc : c.Inv) :
    Phase.inRange (.default (c.datetime.map fun now => now.date.day)) = true := by
  obtain ⟨hdatetime, -, -, -, -⟩ := hc
  cases hd : c.datetime with
  | none => rfl
  | some now =>
    obtain ⟨hday, -⟩ := (date_wf_iff _).mp ((datetime_wf_iff now).mp (hdatetime now hd).1).1
    simpa [Phase.inRange] using hday

/-- A sunrise that SETWEEK or SETWKND does not refuse is in range and has no second (R67, R206). -/
theorem timeOperand_wf {v : Bool} {hour : BitVec 5} {minute : BitVec 6}
    (h : timeOperandBad v hour minute = false) :
    ∀ t ∈ timeOperand v hour minute, t.wf = true ∧ t.second = none := by
  cases v with
  | false => simp [timeOperand]
  | true =>
    simp only [timeOperandBad, Bool.true_and, Bool.or_eq_false_iff, decide_eq_false_iff_not,
      Nat.not_lt] at h
    obtain ⟨hhour, hminute⟩ := h
    intro t ht
    injection ht with ht
    subst ht
    exact ⟨(time_wf_iff _).mpr ⟨hhour, hminute, by simp⟩, rfl⟩

/-! ### The stages keep the Decoder's invariant (R32 (a) to (d), R215) -/

/-- The height is at most `score - score / 50 - 5`, since the mean counts the score itself: at most 152
for a score of at most 160 (R112, R215). -/
theorem excessHeight_le {ring : List Score} {x : Score} (hmem : x ∈ ring) (hx : x.toNat ≤ 160) :
    (excessHeight ring x).toNat ≤ 152 := by
  have hsum : x.toNat ≤ (ring.map BitVec.toNat).sum :=
    List.le_sum_of_mem (List.mem_map_of_mem hmem)
  have hmean : x.toNat / 50 ≤ ringAverage ring := Nat.div_le_div_right hsum
  rw [excessHeight_toNat]
  omega

theorem self_mem_pushScore (ring : List Score) (x : Score) : x ∈ pushScore ring x := by
  have hdrop : (ring ++ [x]).length - 50 ≤ ring.length := by simp
  simp only [pushScore]
  rw [List.drop_append_of_le_length hdrop]
  simp

theorem DecState.fed_inv {d : DecState} (p : Sample) (h : d.Inv) : (d.fed p).Inv := by
  obtain ⟨hcount, hfill, hfull, hdetector, hpeak, hbuffer, hscores, hheight⟩ := h
  have hfed : (d.fed p).wcount.toNat = min (d.wcount.toNat + 1) 200 :=
    d.histShift_wcount_toNat p.level
  refine ⟨by omega, hfill, fun hpos => ?_, hdetector, fun hsome => ⟨rfl, (hpeak hsome).2⟩, hbuffer,
    hscores, hheight⟩
  have := hfull hpos
  omega

/-- PHASE.STEP with a full window: before the ring is full the height is 0 and the latch clear, and stay
so (R111). -/
theorem DecState.phaseStep_inv {d : DecState} {x : Score} (h : d.Inv)
    (hwindow : d.wcount.toNat = 200) (hx : x.toNat ≤ 160) : (d.phaseStep x).2.2.Inv := by
  obtain ⟨-, -, -, hdetector, hpeak, hbuffer, hscores, hheight⟩ := h
  have hlen : (pushScore d.s x).length = min (d.sfill + 1) 50 := pushScore_length d.s x
  have hmem : ∀ y ∈ pushScore d.s x, y.toNat ≤ 160 := by
    intro y hy
    rcases mem_pushScore hy with hold | rfl
    · exact hscores y hold
    · exact hx
  have hkept : d.sfill = 50 → (pushScore d.s x).length = 50 := by omega
  by_cases hring : (pushScore d.s x).length < 50
  · rw [DecState.phaseStep_inactive x hring]
    exact ⟨hwindow.le, hring.le, fun _ => hwindow, fun hd => hkept (hdetector hd),
      fun hp => ⟨(hpeak hp).1, hkept (hpeak hp).2⟩, hbuffer, hmem, hheight⟩
  · have hfull : (pushScore d.s x).length = 50 := by omega
    rw [DecState.phaseStep_active x hfull]
    exact ⟨hwindow.le, hfull.le, fun _ => hwindow, fun _ => hfull,
      fun hp => ⟨(hpeak hp).1, hfull⟩, hbuffer, hmem,
      excessHeight_le (self_mem_pushScore d.s x) hx⟩

theorem DecState.fedScore_le (d : DecState) (p : Sample) : (d.fedScore p).toNat ≤ 160 := by
  have hscore := corrScore_le (d.fed p).w
  rw [DecState.fedScore, BitVec.toNat_ofNat]
  omega

theorem DecState.detected_inv {d : DecState} {p : Sample} (h : d.Inv)
    (hwindow : (d.fed p).wcount.toNat = 200) : (d.detected p).Inv := by
  rw [DecState.detected]
  exact DecState.phaseStep_inv (DecState.fed_inv p h) hwindow (d.fedScore_le p)

/-- An anchored buffer of 60 symbols is taken or aborted, so fewer than 60 stay (R132 to R134). -/
theorem extractFrame_length_le {fb : List Symbol} (hlen : fb.length ≤ 60)
    (hanchor : fb = [] ∨ fb.head? = some .minuteEnd) : (extractFrame fb).2.2.length ≤ 59 := by
  rcases extractFrame_cases fb with ⟨hwait, hwhy⟩ | ⟨syms, -, -, -, htake⟩ |
    ⟨before, after, hfb, hfull, -, habort⟩
  · rw [hwait]
    rcases hanchor with rfl | hhead
    · exact Nat.zero_le _
    · have : fb.length ≠ 60 := hwhy.resolve_right (not_not_intro hhead)
      show fb.length ≤ 59
      omega
  · rw [htake]
    exact Nat.zero_le _
  · rw [habort]
    rw [hfb] at hfull
    simp only [List.length_cons, List.length_append] at hfull
    show after.length ≤ 59
    omega

theorem DecState.pushed_extract_length_le (d : DecState) (p : Sample) (sym : Symbol) :
    (extractFrame (d.pushed p sym).fb).2.2.length ≤ 59 := by
  obtain ⟨-, -, -, -, -, -, -, hfb⟩ := d.pushed_frame p sym
  rw [hfb]
  exact extractFrame_length_le ((reanchor_length_le _).trans (appendSymbol_length_le _ _))
    (reanchor_anchored _)

/-- With a sample remembered and a full ring, a peak may be remembered and the buffer replaced by any of at
most 59 symbols (R32 (c), (d)). -/
theorem DecState.inv_setPeak {d : DecState} {fb : List Symbol} (stamp : Timer) (h : d.Inv)
    (hsmp : d.lastSmp.isSome = true) (hring : d.sfill = 50) (hfb : fb.length ≤ 59) :
    ({ d with lastPeak := some stamp, fb := fb } : DecState).Inv := by
  obtain ⟨hcount, hfill, hfull, hdetector, -, -, hscores, hheight⟩ := h
  exact ⟨hcount, hfill, hfull, hdetector, fun _ => ⟨hsmp, hring⟩, hfb, hscores, hheight⟩

theorem DecState.pushed_setFb (d : DecState) (p : Sample) (sym : Symbol) (rest : List Symbol) :
    ({ d.pushed p sym with fb := rest } : DecState) =
      { d.detected p with lastPeak := some p.stamp, fb := rest } := by
  rw [DecState.pushed]

/-- A peak comes from a full ring (R111), so a confirmed one keeps the invariant. -/
theorem DecState.pushed_inv {d : DecState} {p : Sample} {sym : Symbol} {rest : List Symbol}
    (h : (d.detected p).Inv) (hpeak : ((d.fed p).phaseStep (d.fedScore p)).2.1 = true)
    (hrest : rest.length ≤ 59) : ({ d.pushed p sym with fb := rest } : DecState).Inv := by
  obtain ⟨-, -, hring, -, hsmp, -⟩ := d.detected_frame p
  have hpushed : (pushScore d.s (d.fedScore p)).length = 50 :=
    DecState.phaseStep_peak (d := d.fed p) hpeak
  have hfull : (d.detected p).sfill = 50 := by rw [DecState.sfill, hring, hpushed]
  rw [DecState.pushed_setFb]
  exact DecState.inv_setPeak p.stamp h (by rw [hsmp]; rfl) hfull hrest

/-- The sub-state an accepted sample leaves has the invariant, even the one an error leaves to the resync
(R174 to R176). -/
theorem DecState.accept_inv {d : DecState} (p : Sample) (h : d.Inv) : (d.accept p).2.Inv := by
  have hrest : ∀ {fr ab rest},
      extractFrame (d.pushed p (d.fedSymbol p)).fb = (fr, ab, rest) → rest.length ≤ 59 := by
    intro fr ab rest hex
    have hlen := d.pushed_extract_length_le p (d.fedSymbol p)
    rwa [hex] at hlen
  rcases d.accept_cases p with ⟨-, hacc⟩ | ⟨hwindow, hscored⟩
  · rw [hacc]
    exact DecState.fed_inv p h
  · have hdet := DecState.detected_inv h hwindow
    rcases hscored with ⟨-, hacc⟩ | ⟨hpeak, ⟨e, -, hacc⟩ | ⟨-, ⟨ab, rest, hex, hacc⟩ |
      ⟨f, ab, rest, hex, ⟨e, -, hacc⟩ | ⟨dt, -, hacc⟩⟩⟩⟩ <;> rw [hacc]
    · exact hdet
    · exact hdet
    all_goals exact DecState.pushed_inv hdet hpeak (hrest hex)

theorem DecState.poll_inv {d : DecState} (smp : Option Sample) (h : d.Inv) :
    (d.poll smp).2.Inv := by
  rcases d.poll_cases smp with hp | ⟨p, l, -, -, -, -, hp⟩ | ⟨p, -, -, hp⟩ <;> rw [hp]
  · exact h
  · exact h
  · exact DecState.accept_inv p h

theorem State.decPoll_dec_inv {s : State} (smp : Option Sample) (h : s.dec.Inv) :
    (s.decPoll smp).2.dec.Inv := by
  rw [State.decPoll_dec]
  split
  · exact DecState.empty_inv
  · exact DecState.poll_inv smp h

/-- A Datetime a poll syncs to is one that PROTO.DECODE answered (R174, step 15). -/
theorem DecState.poll_synced {d : DecState} {smp : Option Sample} {dt : Datetime}
    (h : (d.poll smp).1.outcome = .synced dt) : ∃ f, protoDecode f = .ok dt := by
  rcases d.poll_cases smp with hp | ⟨p, l, -, -, -, -, hp⟩ | ⟨p, -, -, hp⟩ <;> rw [hp] at h
  · cases h
  · cases h
  · rcases d.accept_cases p with ⟨-, hacc⟩ | ⟨-, ⟨-, hacc⟩ | ⟨-, ⟨e, -, hacc⟩ |
      ⟨-, ⟨ab, rest, -, hacc⟩ | ⟨f, ab, rest, -, ⟨e, -, hacc⟩ | ⟨dt', hdt, hacc⟩⟩⟩⟩⟩ <;>
      rw [hacc] at h <;> cases h
    exact ⟨f, hdt⟩

/-! ### An UPDATE keeps the invariant (R190 to R197) -/

/-- The aggregate after the RTC read, from any poll that syncs only to decoded Datetimes. -/
theorem ClockAgg.merged_inv {c : ClockAgg} {r : Poll} {rtc : RtcPort} (lasterr : Option DecErr)
    (h : c.Inv) (hsync : ∀ dt, r.outcome = .synced dt → dt.wf = true ∧ dt.time.second = none) :
    (c.merged r lasterr rtc.reading).Inv := by
  obtain ⟨-, hlast, hphase, hweek, hweekend⟩ := h
  refine ⟨fun dt hdt => RtcPort.reading_wf hdt, fun dt hdt => ?_, hphase, hweek, hweekend⟩
  simp only [ClockAgg.merged] at hdt
  split at hdt
  · next dt' hout =>
    injection hdt with hdt
    exact hdt ▸ hsync dt' hout
  · exact hlast dt hdt
  · exact hlast dt hdt

theorem ClockAgg.inv_setPhase {c : ClockAgg} {phase : Phase} (h : c.Inv)
    (hphase : Phase.inRange phase = true) : ({ c with phase := phase } : ClockAgg).Inv := by
  obtain ⟨hdatetime, hlast, -, hweek, hweekend⟩ := h
  exact ⟨hdatetime, hlast, hphase, hweek, hweekend⟩

/-- UPDATE never raises `rtc_wsec_valid`: the Datetime it writes has no second (R30, R192). -/
theorem Poll.outputs_wsecValid {r : Poll} (w : Word)
    (hsync : ∀ dt, r.outcome = .synced dt → dt.time.second = Option.none) :
    (r.outputs w).rtcWsecValid = false := by
  unfold Poll.outputs
  split
  · next dt hout => simp [hsync dt hout]
  · rfl
  · rfl

theorem State.update_inv {s : State} (h : s.Inv) : s.update.Inv := by
  obtain ⟨hdec, hclk, hhw, -⟩ := h
  have hsync : ∀ dt, (s.dec.poll s.hw.pub).1.outcome = .synced dt →
      dt.wf = true ∧ dt.time.second = none := by
    intro dt hdt
    obtain ⟨f, hf⟩ := DecState.poll_synced hdt
    exact ⟨protoDecode_wf hf, protoDecode_second hf⟩
  have hmerged := ClockAgg.merged_inv (rtc := s.rtc) (s.decPoll s.hw.pub).2.clk.lasterr hclk hsync
  rw [State.update_eq]
  exact ⟨State.decPoll_dec_inv s.hw.pub hdec,
    ClockAgg.inv_setPhase hmerged (ClockAgg.phaseAfter_inRange hmerged), hhw,
    Poll.outputs_wsecValid _ fun dt hdt => (hsync dt hdt).2⟩

/-! ### Commands and steps keep the invariant -/

theorem State.respond_inv {s : State} (data : Word) (h : s.Inv) : (s.respond data).Inv := by
  obtain ⟨hdec, hclk, hhw, -⟩ := h
  exact ⟨hdec, hclk, hhw, rfl⟩

theorem State.refuse_inv {s : State} (h : s.Inv) : s.refuse.Inv := by
  obtain ⟨hdec, hclk, hhw, -⟩ := h
  exact ⟨hdec, hclk, hhw, rfl⟩

theorem State.setClk_inv {s : State} {c : ClockAgg} (h : s.Inv) (hc : c.Inv) :
    (s.setClk c).Inv := by
  obtain ⟨hdec, -, hhw, hout⟩ := h
  exact ⟨hdec, hc, hhw, hout⟩

theorem command_inv {i : Instr} {w : Word} {s t : State} (hs : s.Inv) (hd : decode w = .ok i)
    (h : exec i s = .next t) : t.Inv := by
  have ⟨_, hclk, _, _⟩ := hs
  have ⟨hdatetime, hlast, hphase, hweek, hweekend⟩ := hclk
  rcases command_cases hd h with rfl | ⟨data, rfl⟩ | ⟨-, rfl⟩ | ⟨-, rfl⟩ | ⟨-, rfl⟩ |
    ⟨-, hok, rfl⟩ | ⟨-, hok, rfl⟩
  · exact State.refuse_inv hs
  · exact State.respond_inv data hs
  · exact State.update_inv hs
  · exact State.respond_inv _ (State.setClk_inv hs
      (ClockAgg.inv_setPhase hclk (ackPhase_inRange hclk)))
  · exact State.respond_inv _ (State.setClk_inv hs
      ⟨hdatetime, hlast, hphase, hweek, hweekend⟩)
  · exact State.respond_inv _ (State.setClk_inv hs
      ⟨hdatetime, hlast, hphase, timeOperand_wf hok, hweekend⟩)
  · exact State.respond_inv _ (State.setClk_inv hs
      ⟨hdatetime, hlast, hphase, hweek, timeOperand_wf hok⟩)

/-- Settles O56, by what a step can do: each block that an event writes keeps its part of the invariant,
and the other blocks stay. -/
theorem stepKeepsTheInvariant : Obligations.StepKeepsTheInvariant := by
  intro s t hs h
  have htook : ∀ rest, (s.took rest).Inv := fun _ => hs
  obtain ⟨hdec, hclk, hhw, hout⟩ := hs
  rcases step_cases h with ⟨-, rfl⟩ | ⟨w, rest, i, -, hd, hexec⟩ | ⟨w, rest, -, rfl⟩ |
    ⟨pin, rest, -, rfl⟩ | ⟨rest, -, rfl⟩ | ⟨rest, -, rfl⟩ | ⟨a, rest, -, rfl⟩ | ⟨p, rest, -, rfl⟩
  · exact ⟨hdec, hclk, hhw, hout⟩
  · exact command_inv (htook rest) hd hexec
  · exact State.refuse_inv (htook rest)
  · exact ⟨hdec, hclk, HwClock.tick_inv pin hhw, hout⟩
  · exact ⟨DecState.empty_inv, ClockAgg.reset_inv, hhw, rfl⟩
  · exact ⟨hdec, hclk, HwClock.reset_inv, hout⟩
  · exact ⟨hdec, hclk, hhw, hout⟩
  · exact ⟨hdec, hclk, hhw, hout⟩

end Sys2Proof.Machine

namespace Sys2Proof

/-! ### The four word formats: their fields and their reserved bits (R65, R66) -/

@[simp] theorem opField_wordC0 (op : BitVec 8) : opField (wordC0 op) = op :=
  BitVec.extractLsb'_append_eq_left

@[simp] theorem opField_wordC1 (op : BitVec 8) (v : Bool) (min : Minutes) :
    opField (wordC1 op v min) = op := by
  simp only [opField, wordC1, BitVec.extractLsb'_append_eq_of_le, Nat.reduceLeDiff, Nat.reduceSub,
    BitVec.extractLsb'_eq_self]

@[simp] theorem vField_wordC1 (op : BitVec 8) (v : Bool) (min : Minutes) :
    vField (wordC1 op v min) = v := by
  simp only [vField, wordC1, BitVec.getLsbD_append]
  simp

@[simp] theorem minField_wordC1 (op : BitVec 8) (v : Bool) (min : Minutes) :
    minField (wordC1 op v min) = min :=
  BitVec.extractLsb'_append_eq_right

@[simp] theorem opField_wordC2 (op : BitVec 8) (v : Bool) (hour : BitVec 5) (minute : BitVec 6) :
    opField (wordC2 op v hour minute) = op := by
  simp only [opField, wordC2, BitVec.extractLsb'_append_eq_of_le, Nat.reduceLeDiff, Nat.reduceSub,
    BitVec.extractLsb'_eq_self]

@[simp] theorem vField_wordC2 (op : BitVec 8) (v : Bool) (hour : BitVec 5) (minute : BitVec 6) :
    vField (wordC2 op v hour minute) = v := by
  simp only [vField, wordC2, BitVec.getLsbD_append]
  simp

@[simp] theorem hourField_wordC2 (op : BitVec 8) (v : Bool) (hour : BitVec 5) (minute : BitVec 6) :
    hourField (wordC2 op v hour minute) = hour := by
  simp only [hourField, wordC2, BitVec.extractLsb'_append_eq_of_le, Nat.reduceLeDiff, Nat.reduceSub,
    BitVec.extractLsb'_append_eq_right]

@[simp] theorem minuteField_wordC2 (op : BitVec 8) (v : Bool) (hour : BitVec 5)
    (minute : BitVec 6) : minuteField (wordC2 op v hour minute) = minute :=
  BitVec.extractLsb'_append_eq_right

@[simp] theorem opField_wordC3 (op reg : BitVec 8) : opField (wordC3 op reg) = op := by
  simp only [opField, wordC3, BitVec.extractLsb'_append_eq_of_le, Nat.reduceLeDiff, Nat.reduceSub,
    BitVec.extractLsb'_eq_self]

@[simp] theorem regField_wordC3 (op reg : BitVec 8) : regField (wordC3 op reg) = reg :=
  BitVec.extractLsb'_append_eq_right

@[simp] theorem wordC0_reserved (op : BitVec 8) : wordC0 op &&& reservedC0 = 0#32 := by
  have hmask : reservedC0 = 0#8 ++ BitVec.allOnes 24 := by decide
  rw [wordC0, hmask, BitVec.and_append]
  simp

@[simp] theorem wordC1_reserved (op : BitVec 8) (v : Bool) (min : Minutes) :
    wordC1 op v min &&& reservedC1 = 0#32 := by
  have hmask : reservedC1 = 0#8 ++ BitVec.allOnes 7 ++ 0#1 ++ BitVec.allOnes 4 ++ 0#12 := by decide
  rw [wordC1, hmask]
  iterate 4 rw [BitVec.and_append]
  simp

@[simp] theorem wordC2_reserved (op : BitVec 8) (v : Bool) (hour : BitVec 5) (minute : BitVec 6) :
    wordC2 op v hour minute &&& reservedC2 = 0#32 := by
  have hmask : reservedC2 =
      0#8 ++ BitVec.allOnes 7 ++ 0#1 ++ BitVec.allOnes 3 ++ 0#5 ++ BitVec.allOnes 2 ++ 0#6 := by
    decide
  rw [wordC2, hmask]
  iterate 6 rw [BitVec.and_append]
  simp

@[simp] theorem wordC3_reserved (op reg : BitVec 8) : wordC3 op reg &&& reservedC3 = 0#32 := by
  have hmask : reservedC3 = 0#8 ++ BitVec.allOnes 16 ++ 0#8 := by decide
  rw [wordC3, hmask]
  iterate 2 rw [BitVec.and_append]
  simp

/-! ### A word is its format's fields and its reserved bits -/

theorem wordC1_fields (w : Word) :
    wordC1 (opField w) (vField w) (minField w) = w &&& ~~~reservedC1 := by
  apply BitVec.eq_of_getLsbD_eq
  intro k hk
  simp only [wordC1, opField, vField, minField, reservedC1, BitVec.getLsbD_and,
    BitVec.getLsbD_append, BitVec.getLsbD_extractLsb']
  interval_cases k <;> simp

theorem wordC2_fields (w : Word) :
    wordC2 (opField w) (vField w) (hourField w) (minuteField w) = w &&& ~~~reservedC2 := by
  apply BitVec.eq_of_getLsbD_eq
  intro k hk
  simp only [wordC2, opField, vField, hourField, minuteField, reservedC2, BitVec.getLsbD_and,
    BitVec.getLsbD_append, BitVec.getLsbD_extractLsb']
  interval_cases k <;> simp

theorem wordC3_fields (w : Word) : wordC3 (opField w) (regField w) = w &&& ~~~reservedC3 := by
  apply BitVec.eq_of_getLsbD_eq
  intro k hk
  simp only [wordC3, opField, regField, reservedC3, BitVec.getLsbD_and, BitVec.getLsbD_append,
    BitVec.getLsbD_extractLsb']
  interval_cases k <;> simp

theorem and_not_of_and_eq_zero {w reserved : Word} (h : w &&& reserved = 0#32) :
    w &&& ~~~reserved = w := by
  have hsplit : w &&& ~~~reserved = w &&& ~~~(w &&& reserved) := by
    apply BitVec.eq_of_getLsbD_eq
    intro k hk
    simp only [BitVec.getLsbD_and, BitVec.getLsbD_not]
    cases w.getLsbD k <;> simp
  rw [hsplit, h, BitVec.not_zero, BitVec.and_allOnes]

theorem eq_wordC1 {w : Word} (h : w &&& reservedC1 = 0#32) :
    w = wordC1 (opField w) (vField w) (minField w) :=
  (and_not_of_and_eq_zero h).symm.trans (wordC1_fields w).symm

theorem eq_wordC2 {w : Word} (h : w &&& reservedC2 = 0#32) :
    w = wordC2 (opField w) (vField w) (hourField w) (minuteField w) :=
  (and_not_of_and_eq_zero h).symm.trans (wordC2_fields w).symm

theorem eq_wordC3 {w : Word} (h : w &&& reservedC3 = 0#32) :
    w = wordC3 (opField w) (regField w) :=
  (and_not_of_and_eq_zero h).symm.trans (wordC3_fields w).symm

/-! ### The decoder, one equation for each opcode (R66) -/

section
variable {w : Word}

theorem decode_nop (h : opField w = 0x00#8) : decode w = acceptIf w reservedC0 .nop := by
  simp [decode, h]

theorem decode_update (h : opField w = 0x01#8) : decode w = acceptIf w reservedC0 .update := by
  simp [decode, h]

theorem decode_ack (h : opField w = 0x02#8) : decode w = acceptIf w reservedC0 .ack := by
  simp [decode, h]

theorem decode_setdawn (h : opField w = 0x10#8) :
    decode w = acceptIf w reservedC1 (.setdawn (vField w) (minField w)) := by
  simp [decode, h]

theorem decode_setweek (h : opField w = 0x11#8) :
    decode w = acceptIf w reservedC2 (.setweek (vField w) (hourField w) (minuteField w)) := by
  simp [decode, h]

theorem decode_setwknd (h : opField w = 0x12#8) :
    decode w = acceptIf w reservedC2 (.setwknd (vField w) (hourField w) (minuteField w)) := by
  simp [decode, h]

theorem decode_rdreg (h : opField w = 0x20#8) :
    decode w = acceptIf w reservedC3 (rdregRow (regField w)) := by
  simp [decode, h]

end

theorem acceptIf_of_clear {w reserved : Word} (i : Instr) (h : w &&& reserved = 0#32) :
    acceptIf w reserved i = .ok i :=
  if_pos h

/-! ### The encoder -/

theorem encode_row (r : Reg) : encode r.row = some (wordC3 0x20#8 r.number) := by
  cases r <;> rfl

theorem rdregRow_number (r : Reg) : rdregRow r.number = r.row := by
  simp only [rdregRow, Reg.ofNumber_number]

/-- A register number's row, its own or the general one, has the RDREG word of that number (entry 8). -/
theorem encode_rdregRow (n : BitVec 8) : encode (rdregRow n) = some (wordC3 0x20#8 n) := by
  unfold rdregRow
  cases hr : Reg.ofNumber n with
  | none => rfl
  | some r => rw [encode_row, Reg.number_of_ofNumber hr]

theorem canonical_of_not_rdreg {i : Instr} (h : ∀ r, i ≠ .rdreg r) : i.canonical = i := by
  cases i with
  | rdreg r => exact absurd rfl (h r)
  | _ => rfl

/-! ### Decoding and encoding are each other's inverse (R65, R66) -/

theorem decode_setdawnWord (v : Bool) (min : Minutes) :
    decode (wordC1 0x10#8 v min) = .ok (.setdawn v min) := by
  rw [decode_setdawn (opField_wordC1 _ v min), acceptIf_of_clear _ (wordC1_reserved _ v min),
    vField_wordC1, minField_wordC1]

theorem decode_setweekWord (v : Bool) (hour : BitVec 5) (minute : BitVec 6) :
    decode (wordC2 0x11#8 v hour minute) = .ok (.setweek v hour minute) := by
  rw [decode_setweek (opField_wordC2 _ v hour minute),
    acceptIf_of_clear _ (wordC2_reserved _ v hour minute), vField_wordC2, hourField_wordC2,
    minuteField_wordC2]

theorem decode_setwkndWord (v : Bool) (hour : BitVec 5) (minute : BitVec 6) :
    decode (wordC2 0x12#8 v hour minute) = .ok (.setwknd v hour minute) := by
  rw [decode_setwknd (opField_wordC2 _ v hour minute),
    acceptIf_of_clear _ (wordC2_reserved _ v hour minute), vField_wordC2, hourField_wordC2,
    minuteField_wordC2]

theorem decode_rdregWord (n : BitVec 8) : decode (wordC3 0x20#8 n) = .ok (rdregRow n) := by
  rw [decode_rdreg (opField_wordC3 _ n), acceptIf_of_clear _ (wordC3_reserved _ n), regField_wordC3]

theorem decode_rowWord (r : Reg) : decode (wordC3 0x20#8 r.number) = .ok r.row := by
  rw [decode_rdregWord, rdregRow_number]

/-- The constructors that have a word: three of format C0, SETDAWN of C1, SETWEEK and SETWKND of C2,
RDREG and its rows of C3 (R65, R66). -/
theorem decode_encode {i : Instr} {w : Word} (h : encode i = some w) :
    decode w = .ok i.canonical := by
  cases i with
  | nop =>
    cases h
    exact (decode_nop (opField_wordC0 _)).trans (acceptIf_of_clear _ (wordC0_reserved _))
  | update =>
    cases h
    exact (decode_update (opField_wordC0 _)).trans (acceptIf_of_clear _ (wordC0_reserved _))
  | ack =>
    cases h
    exact (decode_ack (opField_wordC0 _)).trans (acceptIf_of_clear _ (wordC0_reserved _))
  | setdawn v min => cases h; exact decode_setdawnWord v min
  | setweek v hour minute => cases h; exact decode_setweekWord v hour minute
  | setwknd v hour minute => cases h; exact decode_setwkndWord v hour minute
  | rdreg n => cases h; exact decode_rdregWord n
  | rdregCurDate => cases h; exact decode_rowWord .curDate
  | rdregCurTime => cases h; exact decode_rowWord .curTime
  | rdregSyncDate => cases h; exact decode_rowWord .syncDate
  | rdregSyncTime => cases h; exact decode_rowWord .syncTime
  | rdregPhase => cases h; exact decode_rowWord .phase
  | rdregLastbit => cases h; exact decode_rowWord .lastbit
  | rdregQuarters => cases h; exact decode_rowWord .quarters
  | rdregLasterr => cases h; exact decode_rowWord .lasterr
  | rdregDawn => cases h; exact decode_rowWord .dawn
  | rdregWeek => cases h; exact decode_rowWord .week
  | rdregWknd => cases h; exact decode_rowWord .wknd
  | rdregDecstat => cases h; exact decode_rowWord .decstat
  | rdregFbstat => cases h; exact decode_rowWord .fbstat
  | rdregSmpstamp => cases h; exact decode_rowWord .smpstamp
  | rdregPeakstamp => cases h; exact decode_rowWord .peakstamp
  | _ => cases h

/-- Settles O1: the fields of a command's word are its operands, and its reserved bits are 0. -/
theorem decodeOfEncodeGivesTheCommand : Obligations.DecodeOfEncodeGivesTheCommand :=
  fun _ _ h => ⟨decode_encode h, canonical_of_not_rdreg⟩

/-- Settles O2: with its reserved bits 0, a word is its format's fields, and these are the operands of
the command it decodes to. -/
theorem encodeOfDecodeGivesTheWord : Obligations.EncodeOfDecodeGivesTheWord := by
  intro w i h
  rcases decode_cases h with ⟨hop, hr, rfl⟩ | ⟨hop, hr, rfl⟩ | ⟨hop, hr, rfl⟩ | ⟨hop, hr, rfl⟩ |
    ⟨hop, hr, rfl⟩ | ⟨hop, hr, rfl⟩ | ⟨hop, hr, rfl⟩
  · exact congrArg some (hop ▸ (eq_of_op_c0 hr).symm)
  · exact congrArg some (hop ▸ (eq_of_op_c0 hr).symm)
  · exact congrArg some (hop ▸ (eq_of_op_c0 hr).symm)
  · exact congrArg some (hop ▸ (eq_wordC1 hr).symm)
  · exact congrArg some (hop ▸ (eq_wordC2 hr).symm)
  · exact congrArg some (hop ▸ (eq_wordC2 hr).symm)
  · rw [encode_rdregRow, ← hop, ← eq_wordC3 hr]

/-- Settles O5: closed words, decoded by evaluation. -/
theorem sampleWordsDecodeRight : Obligations.SampleWordsDecodeRight := by
  unfold Obligations.SampleWordsDecodeRight
  decide

end Sys2Proof

namespace Sys2Proof

/-! ### Illegal words: those that decode to no command, or to one with ill-formed operands (R70) -/

theorem acceptIf_iff {w reserved : Word} {i j : Instr} :
    acceptIf w reserved i = .ok j ↔ w &&& reserved = 0#32 ∧ j = i := by
  refine ⟨acceptIf_ok, ?_⟩
  rintro ⟨h, rfl⟩
  exact acceptIf_of_clear j h

theorem wellFormed_rdregRow (n : BitVec 8) : (rdregRow n).wellFormed = registerDefined n := by
  unfold rdregRow
  rw [registerDefined_iff]
  cases hr : Reg.ofNumber n with
  | none => simpa [Instr.wellFormed, hr] using registerDefined_iff n
  | some r => cases r <;> rfl

end Sys2Proof

namespace Sys2Proof.Machine

theorem timeOperandBad_iff (v : Bool) (hour : BitVec 5) (minute : BitVec 6) :
    timeOperandBad v hour minute = true ↔ v = true ∧ (23 < hour.toNat ∨ 59 < minute.toNat) := by
  simp [timeOperandBad]

theorem timeOperandBad_eq (v : Bool) (hour : BitVec 5) (minute : BitVec 6) :
    timeOperandBad v hour minute = !sunriseOperandOk v hour minute := by
  rw [Bool.eq_iff_iff, timeOperandBad_iff]
  cases v <;> simp [sunriseOperandOk]

section
variable {w : Word}

/-- The opcode as the statements write it. -/
theorem extract_op (w : Word) : w.extractLsb' 24 8 = opField w := rfl

theorem illegalWord_c0 (h : opField w = 0x00#8 ∨ opField w = 0x01#8 ∨ opField w = 0x02#8) :
    IllegalWord w ↔ w &&& reservedC0 ≠ 0#32 := by
  rcases h with h | h | h <;> simp [IllegalWord, extract_op, h, reservedC0]

theorem illegalWord_c1 (h : opField w = 0x10#8) : IllegalWord w ↔ w &&& reservedC1 ≠ 0#32 := by
  simp [IllegalWord, extract_op, h, reservedC1]

theorem illegalWord_c2 (h : opField w = 0x11#8 ∨ opField w = 0x12#8) :
    IllegalWord w ↔ w &&& reservedC2 ≠ 0#32 ∨
      timeOperandBad (vField w) (hourField w) (minuteField w) = true := by
  rw [timeOperandBad_iff]
  rcases h with h | h <;>
    simp [IllegalWord, extract_op, h, reservedC2, vField, hourField, minuteField]

theorem illegalWord_c3 (h : opField w = 0x20#8) :
    IllegalWord w ↔ w &&& reservedC3 ≠ 0#32 ∨ registerDefined (regField w) = false := by
  simp [IllegalWord, extract_op, h, reservedC3, regField]

theorem illegalWord_of_unknown_op (h : opField w ∉
    [0x00#8, 0x01#8, 0x02#8, 0x10#8, 0x11#8, 0x12#8, 0x20#8]) : IllegalWord w :=
  .inl h

end

/-- R70: the legal words are those that decode to a command whose operands its rule admits. -/
theorem legalWord_iff (w : Word) :
    ¬ IllegalWord w ↔ ∃ i, decode w = .ok i ∧ i.wellFormed = true := by
  by_cases h00 : opField w = 0x00#8
  · rw [illegalWord_c0 (.inl h00), decode_nop h00]
    simp [acceptIf_iff, Instr.wellFormed]
  by_cases h01 : opField w = 0x01#8
  · rw [illegalWord_c0 (.inr (.inl h01)), decode_update h01]
    simp [acceptIf_iff, Instr.wellFormed]
  by_cases h02 : opField w = 0x02#8
  · rw [illegalWord_c0 (.inr (.inr h02)), decode_ack h02]
    simp [acceptIf_iff, Instr.wellFormed]
  by_cases h10 : opField w = 0x10#8
  · rw [illegalWord_c1 h10, decode_setdawn h10]
    simp [acceptIf_iff, Instr.wellFormed]
  by_cases h11 : opField w = 0x11#8
  · rw [illegalWord_c2 (.inl h11), decode_setweek h11]
    simp [acceptIf_iff, Instr.wellFormed, timeOperandBad_eq]
  by_cases h12 : opField w = 0x12#8
  · rw [illegalWord_c2 (.inr h12), decode_setwknd h12]
    simp [acceptIf_iff, Instr.wellFormed, timeOperandBad_eq]
  by_cases h20 : opField w = 0x20#8
  · rw [illegalWord_c3 h20, decode_rdreg h20]
    simp [acceptIf_iff, wellFormed_rdregRow]
  · have hill : IllegalWord w :=
      illegalWord_of_unknown_op (by simp [h00, h01, h02, h10, h11, h12, h20])
    have hd : decode w = .error .unknownOpcode := by
      simp [decode, h00, h01, h02, h10, h11, h12, h20]
    simp only [hd, reduceCtorEq, false_and, exists_false, iff_false, not_not]
    exact hill

/-! ### A command is refused whole or answers without an error (R68, R70) -/

theorem Poll.outputs_rspErr (r : Poll) (w : Word) : (r.outputs w).rspErr = false := by
  unfold Poll.outputs
  split <;> rfl

theorem State.update_rspErr (s : State) : s.update.out.rspErr = false := by
  rw [State.update_eq]
  exact Poll.outputs_rspErr _ _

theorem exec_rdregRow_of_undefined {n : BitVec 8} (s : State) (h : registerDefined n = false) :
    exec (rdregRow n) s = .next s.refuse := by
  rw [registerDefined_iff, Option.isSome_eq_false_iff, Option.isNone_iff_eq_none] at h
  simp only [rdregRow, h, exec, execRdreg]

theorem exec_rdregRow_of_defined {n : BitVec 8} (s : State) (h : registerDefined n = true) :
    ∃ r, exec (rdregRow n) s = .next (s.respond (s.regRead r)) := by
  rw [registerDefined_iff, Option.isSome_iff_exists] at h
  obtain ⟨r, hr⟩ := h
  exact ⟨r, by simp only [rdregRow, hr, exec_row]⟩

theorem exec_of_illFormed {i : Instr} {w : Word} (s : State) (hd : decode w = .ok i)
    (hi : i.wellFormed = false) : exec i s = .next s.refuse := by
  rcases decode_cases hd with ⟨-, -, rfl⟩ | ⟨-, -, rfl⟩ | ⟨-, -, rfl⟩ | ⟨-, -, rfl⟩ |
    ⟨-, -, rfl⟩ | ⟨-, -, rfl⟩ | ⟨-, -, rfl⟩
  · cases hi
  · cases hi
  · cases hi
  · cases hi
  · simp only [Instr.wellFormed] at hi
    simp [exec, execSetweek, timeOperandBad_eq, hi]
  · simp only [Instr.wellFormed] at hi
    simp [exec, execSetwknd, timeOperandBad_eq, hi]
  · rw [wellFormed_rdregRow] at hi
    exact exec_rdregRow_of_undefined s hi

theorem exec_of_wellFormed {i : Instr} {w : Word} (s : State) (hd : decode w = .ok i)
    (hi : i.wellFormed = true) : ∃ t, exec i s = .next t ∧ t.out.rspErr = false := by
  rcases decode_cases hd with ⟨-, -, rfl⟩ | ⟨-, -, rfl⟩ | ⟨-, -, rfl⟩ | ⟨-, -, rfl⟩ |
    ⟨-, -, rfl⟩ | ⟨-, -, rfl⟩ | ⟨-, -, rfl⟩
  · exact ⟨_, rfl, rfl⟩
  · exact ⟨_, rfl, State.update_rspErr s⟩
  · exact ⟨_, rfl, rfl⟩
  · exact ⟨_, rfl, rfl⟩
  · simp only [Instr.wellFormed] at hi
    simp [exec, execSetweek, timeOperandBad_eq, hi, Outputs.idle]
  · simp only [Instr.wellFormed] at hi
    simp [exec, execSetwknd, timeOperandBad_eq, hi, Outputs.idle]
  · rw [wellFormed_rdregRow] at hi
    obtain ⟨r, hr⟩ := exec_rdregRow_of_defined s hi
    exact ⟨_, hr, rfl⟩

theorem step_of_illegal {s : State} {w : Word} {rest : List Event}
    (h : s.inbox = .host w :: rest) (hw : IllegalWord w) : step s = .next (s.took rest).refuse := by
  rw [step_host h]
  cases hd : decode w with
  | error _ => rfl
  | ok i =>
    have hi : i.wellFormed = false := by
      by_contra hi
      exact (legalWord_iff w).mpr ⟨i, hd, by simpa using hi⟩ hw
    exact exec_of_illFormed _ hd hi

theorem step_of_legal {s : State} {w : Word} {rest : List Event}
    (h : s.inbox = .host w :: rest) (hw : ¬ IllegalWord w) :
    ∃ t, step s = .next t ∧ t.out.rspErr = false := by
  obtain ⟨i, hd, hi⟩ := (legalWord_iff w).mp hw
  rw [step_host h, hd]
  exact exec_of_wellFormed _ hd hi

/-- Settles O3: an illegal word refuses, whether the decoder or its command does it, and a legal one
runs a command that answers without an error. -/
theorem commandWordRefusedExactlyWhenIllegal : Obligations.CommandWordRefusedExactlyWhenIllegal := by
  intro s w rest h
  by_cases hw : IllegalWord w
  · exact ⟨_, step_of_illegal h hw, ⟨fun _ => hw, fun _ => rfl⟩, fun _ => ⟨0#56, rfl⟩⟩
  · obtain ⟨t, ht, herr⟩ := step_of_legal h hw
    exact ⟨t, ht, by simp [herr, hw], fun hbad => absurd hbad hw⟩

end Sys2Proof.Machine

namespace Sys2Proof.Machine

/-! ### Reading a register answers its word and changes nothing else (R68, R208) -/

theorem exec_row_answers (r : Reg) (s : State) :
    ∃ p, exec r.row s = .next { s with out := answer false (s.regRead r) p } :=
  ⟨0#56, exec_row r s⟩

theorem exec_row_answers_number {s : State} {w : Word} {n : Nat} (r : Reg) (hread : s.regRead r = w)
    (hnumber : w.toNat = n) :
    ∃ (w : Word) (p : Payload), w.toNat = n ∧
      exec r.row s = .next { s with out := answer false w p } :=
  ⟨s.regRead r, 0#56, hread ▸ hnumber, exec_row r s⟩

/-! ### The register words as numbers (R71 to R74) -/

theorem timeWord_toNat_of_no_second {dt : Datetime} (h : dt.time.second = none) :
    (timeWord (some dt)).toNat = 2 ^ 31 + dt.time.hour.toNat * 2 ^ 8 + dt.time.minute.toNat := by
  simp [timeWord_toNat, h]

theorem timeWord_toNat_of_second {dt : Datetime} {sec : BitVec 6} (h : dt.time.second = some sec) :
    (timeWord (some dt)).toNat = 2 ^ 31 + 2 ^ 23 + sec.toNat * 2 ^ 16 + dt.time.hour.toNat * 2 ^ 8
      + dt.time.minute.toNat := by
  simp [timeWord_toNat, h]

theorem phaseWord_default_toNat (d : BitVec 5) :
    (phaseWord (.default (some d))).toNat = d.toNat * 2 ^ 8 + 2 ^ 7 := by
  refine (append_toNat _ 0#2).trans ?_
  simp only [append_toNat]
  simp
  omega

theorem phaseWord_dawn_toNat (e : Minutes) :
    (phaseWord (.dawn e)).toNat = e.toNat * 2 ^ 16 + 1 := by
  refine (append_toNat _ 1#2).trans ?_
  simp only [append_toNat]
  simp
  omega

theorem phaseWord_sunRise_toNat (e : Minutes) :
    (phaseWord (.sunRise e)).toNat = e.toNat * 2 ^ 16 + 2 := by
  refine (append_toNat _ 2#2).trans ?_
  simp only [append_toNat]
  simp
  omega

theorem lasterrWord_toNat (e : DecErr) :
    (lasterrWord (some e)).toNat = 2 ^ 31 + e.kind.code.toNat * 2 ^ 24 + e.info.toNat := by
  refine (append_toNat _ e.info).trans ?_
  simp only [append_toNat]
  simp
  omega

theorem decstatWord_toNat {d : DecState} (h : d.sfill ≤ 50) :
    (decstatWord d).toNat = d.prevHeight.toNat * 2 ^ 24 + (if d.latch then 2 ^ 16 else 0)
      + d.sfill * 2 ^ 8 + d.wcount.toNat := by
  refine (append_toNat _ d.wcount).trans ?_
  simp only [append_toNat]
  cases d.latch <;> simp <;> omega

theorem fbstatWord_toNat {d : DecState} (h : d.fbLen ≤ 60) : (fbstatWord d).toNat = d.fbLen := by
  refine (append_toNat 0#26 (BitVec.ofNat 6 d.fbLen)).trans ?_
  simp
  omega

theorem stampWord_toNat (t : Timer) : (stampWord (some t)).toNat = 2 ^ 16 + t.toNat := by
  refine (append_toNat _ t).trans ?_
  simp

theorem dawnWord_toNat (m : Minutes) : (dawnWord (some m)).toNat = 2 ^ 16 + m.toNat := by
  refine (append_toNat _ m).trans ?_
  simp only [append_toNat]
  simp

theorem sunriseWord_toNat (t : Time) :
    (sunriseWord (some t)).toNat = 2 ^ 16 + t.hour.toNat * 2 ^ 8 + t.minute.toNat := by
  refine (append_toNat _ t.minute).trans ?_
  simp only [append_toNat]
  simp
  omega

/-- A difference the accessor takes is at most 32767 minutes, 2184 quarters (R209). -/
theorem quarters_le {a b : Option Datetime} {q : Nat} (h : quarters a b = some q) : q ≤ 2184 := by
  unfold quarters at h
  split at h
  · simp only at h
    split_ifs at h with hrange hneg <;> injection h with h
    · omega
    · omega
  · cases h
  · cases h
  · cases h

/-! ### The registers show their fields -/

/-- Settles O48: one Datetime at a time, from the words of its two registers. -/
theorem datetimeRegistersShowTheDatetimes : Obligations.DatetimeRegistersShowTheDatetimes := by
  intro s answers shows
  have pair : ∀ (dateReg timeReg : Reg) (o : Option Datetime), s.regRead dateReg = dateWord o →
      s.regRead timeReg = timeWord o → shows dateReg.row timeReg.row o := by
    intro dateReg timeReg o hdate htime
    refine ⟨dateWord o, timeWord o, hdate ▸ exec_row_answers dateReg s,
      htime ▸ exec_row_answers timeReg s, ?absent, ?present⟩
    case absent =>
      rintro rfl
      exact ⟨rfl, rfl⟩
    case present =>
      rintro dt rfl
      exact ⟨dateWord_toNat dt, timeWord_toNat_of_no_second, fun _ => timeWord_toNat_of_second⟩
  exact ⟨pair .curDate .curTime _ rfl rfl, pair .syncDate .syncTime _ rfl rfl⟩

/-- Settles O49: the word of each form of the phase. -/
theorem phaseRegisterShowsThePhase : Obligations.PhaseRegisterShowsThePhase := by
  intro s
  refine ⟨phaseWord s.clk.phase, exec_row_answers .phase s, ?_, ?_, ?_, ?_⟩
  · intro h
    rw [h]
    rfl
  · intro d h
    rw [h, phaseWord_default_toNat]
  · intro e h
    rw [h, phaseWord_dawn_toNat]
  · intro e h
    rw [h, phaseWord_sunRise_toNat]

/-- Settles O50: the word of each register, under the bounds that let the counts fit their fields. -/
theorem diagnosticRegistersShowTheirFields : Obligations.DiagnosticRegistersShowTheirFields := by
  intro s hsfill hfb answers
  refine ⟨?_, ?_, ?_, ?_, ?_, ?_, ?_, ?_, ?_, ?_, ?_, ?_, ?_, ?_⟩
  · exact fun h => exec_row_answers_number .lastbit (congrArg lastbitWord h) rfl
  · exact fun h => exec_row_answers_number .lastbit (congrArg lastbitWord h) rfl
  · exact fun h => exec_row_answers_number .lastbit (congrArg lastbitWord h) rfl
  · exact fun h => exec_row_answers_number .lastbit (congrArg lastbitWord h) rfl
  · exact fun h => exec_row_answers_number .lasterr (congrArg lasterrWord h) rfl
  · exact fun e h => exec_row_answers_number .lasterr (congrArg lasterrWord h) (lasterrWord_toNat e)
  · exact fun h => exec_row_answers_number .quarters (congrArg quartersWord h) rfl
  · intro q h
    have hq := quarters_le h
    exact ⟨hq, exec_row_answers_number .quarters (congrArg quartersWord h)
      (quartersWord_toNat (by omega))⟩
  · exact exec_row_answers_number .decstat rfl (decstatWord_toNat hsfill)
  · exact exec_row_answers_number .fbstat rfl (fbstatWord_toNat hfb)
  · exact fun h => exec_row_answers_number .smpstamp (congrArg stampWord h) rfl
  · exact fun t h => exec_row_answers_number .smpstamp (congrArg stampWord h) (stampWord_toNat t)
  · exact fun h => exec_row_answers_number .peakstamp (congrArg stampWord h) rfl
  · exact fun t h => exec_row_answers_number .peakstamp (congrArg stampWord h) (stampWord_toNat t)

/-- Settles O51: the word of each configuration field, absent or present. -/
theorem configurationRegistersShowTheirFields :
    Obligations.ConfigurationRegistersShowTheirFields := by
  intro s answers
  refine ⟨?_, ?_, ?_, ?_, ?_, ?_⟩
  · exact fun h => exec_row_answers_number .dawn (congrArg dawnWord h) rfl
  · exact fun m h => exec_row_answers_number .dawn (congrArg dawnWord h) (dawnWord_toNat m)
  · exact fun h => exec_row_answers_number .week (congrArg sunriseWord h) rfl
  · exact fun t h => exec_row_answers_number .week (congrArg sunriseWord h) (sunriseWord_toNat t)
  · exact fun h => exec_row_answers_number .wknd (congrArg sunriseWord h) rfl
  · exact fun t h => exec_row_answers_number .wknd (congrArg sunriseWord h) (sunriseWord_toNat t)

/-! ### A configuration field read back (R74, R205 to R207) -/

theorem dawnWord_readback {w : Word} (h : w &&& reservedC1 = 0#32) :
    dawnWord (minutesOperand (vField w) (minField w))
      = if w.getLsbD 16 then w &&& 0x1FFFF#32 else 0#32 := by
  change _ = if vField w then _ else _
  rw [eq_wordC1 h]
  generalize opField w = op, vField w = v, minField w = min
  cases v with
  | false => simp [minutesOperand, dawnWord]
  | true =>
    simp only [vField_wordC1, minField_wordC1, minutesOperand, if_true]
    apply BitVec.eq_of_getLsbD_eq
    intro k hk
    simp only [dawnWord, wordC1, BitVec.getLsbD_and, BitVec.getLsbD_append]
    interval_cases k <;> simp

theorem sunriseWord_readback {w : Word} (h : w &&& reservedC2 = 0#32) :
    sunriseWord (timeOperand (vField w) (hourField w) (minuteField w))
      = if w.getLsbD 16 then w &&& 0x1FFFF#32 else 0#32 := by
  change _ = if vField w then _ else _
  rw [eq_wordC2 h]
  generalize opField w = op, vField w = v, hourField w = hour, minuteField w = minute
  cases v with
  | false => simp [timeOperand, sunriseWord]
  | true =>
    simp only [vField_wordC2, hourField_wordC2, minuteField_wordC2, timeOperand, if_true]
    apply BitVec.eq_of_getLsbD_eq
    intro k hk
    simp only [sunriseWord, wordC2, BitVec.getLsbD_and, BitVec.getLsbD_append]
    interval_cases k <;> simp

/-- A command that writes the Clock aggregate `c`, then RDREG of a register: two steps answer the
register's word in a state with that aggregate. -/
theorem run_write_read {s : State} {w read : Word} {rest : List Event} {i : Instr} {c : ClockAgg}
    (r : Reg) (hin : s.inbox = .host w :: .host read :: rest) (hw : decode w = .ok i)
    (hexec : exec i (s.took (.host read :: rest))
      = .next (((s.took (.host read :: rest)).setClk c).respond 0#32))
    (hread : decode read = .ok r.row) :
    ∃ t, Host.Core.run Sys2Proof.core 2 s = .next t ∧ t.out.rspErr = false ∧
      t.out.rspData = (s.setClk c).regRead r := by
  have hfirst : step s = .next (((s.took (.host read :: rest)).setClk c).respond 0#32) := by
    rw [step_host hin, hw]
    exact hexec
  have hsecond : step (((s.took (.host read :: rest)).setClk c).respond 0#32)
      = .next (((s.setClk c).took rest).respond ((s.setClk c).regRead r)) := by
    rw [step_host (w := read) (rest := rest) rfl, hread]
    exact (exec_row r _).trans (by cases r <;> rfl)
  refine ⟨((s.setClk c).took rest).respond ((s.setClk c).regRead r), ?_, rfl, rfl⟩
  simp only [Host.Core.run, Sys2Proof.core, hfirst, hsecond]

theorem exec_setweek_of_ok {v : Bool} {hour : BitVec 5} {minute : BitVec 6} (s : State)
    (h : timeOperandBad v hour minute = false) :
    exec (.setweek v hour minute) s = .next
      ((s.setClk { s.clk with weekSunrise := timeOperand v hour minute }).respond 0#32) := by
  simp only [exec, execSetweek, h, Bool.false_eq_true, if_false]

theorem exec_setwknd_of_ok {v : Bool} {hour : BitVec 5} {minute : BitVec 6} (s : State)
    (h : timeOperandBad v hour minute = false) :
    exec (.setwknd v hour minute) s = .next
      ((s.setClk { s.clk with weekendSunrise := timeOperand v hour minute }).respond 0#32) := by
  simp only [exec, execSetwknd, h, Bool.false_eq_true, if_false]

theorem legal_c2 {w : Word} (hop : opField w = 0x11#8 ∨ opField w = 0x12#8)
    (h : ¬ IllegalWord w) :
    w &&& reservedC2 = 0#32 ∧ timeOperandBad (vField w) (hourField w) (minuteField w) = false := by
  rw [illegalWord_c2 hop] at h
  simpa using h

/-- Settles O52: each SET command writes its own field, and the register's word of that field is the low
17 bits of the command's. -/
theorem configurationReadsBack : Obligations.ConfigurationReadsBack := by
  rintro s w rest hlegal read (⟨hop, rfl⟩ | ⟨hop, rfl⟩ | ⟨hop, rfl⟩) hin
  · have hr : w &&& reservedC1 = 0#32 := by simpa [illegalWord_c1 hop] using hlegal
    obtain ⟨t, hrun, herr, hdata⟩ := run_write_read .dawn hin
      ((decode_setdawn hop).trans (acceptIf_of_clear _ hr)) rfl rfl
    exact ⟨t, hrun, herr, hdata.trans (dawnWord_readback hr)⟩
  · obtain ⟨hr, hok⟩ := legal_c2 (.inl hop) hlegal
    obtain ⟨t, hrun, herr, hdata⟩ := run_write_read .week hin
      ((decode_setweek hop).trans (acceptIf_of_clear _ hr)) (exec_setweek_of_ok _ hok) rfl
    exact ⟨t, hrun, herr, hdata.trans (sunriseWord_readback hr)⟩
  · obtain ⟨hr, hok⟩ := legal_c2 (.inr hop) hlegal
    obtain ⟨t, hrun, herr, hdata⟩ := run_write_read .wknd hin
      ((decode_setwknd hop).trans (acceptIf_of_clear _ hr)) (exec_setwknd_of_ok _ hok) rfl
    exact ⟨t, hrun, herr, hdata.trans (sunriseWord_readback hr)⟩

end Sys2Proof.Machine

namespace Sys2Proof.Machine

/-! ### The record of a poll, stage by stage (R174, R212) -/

/-- Each stage a record shows came after the stages before it; an aborted extraction came after a symbol
and gave no frame. -/
structure Poll.Staged (r : Poll) : Prop where
  frame_of_sync : r.outcome.isSynced = true → r.frame.isSome = true
  symbol_of_frame : r.frame.isSome = true → r.symbol.isSome = true
  peak_of_symbol : r.symbol.isSome = true → r.peak = true
  score_of_peak : r.peak = true → r.score.isSome = true
  accepted_of_score : r.score.isSome = true → r.accepted = true
  symbol_of_aborted : r.aborted = true → r.symbol.isSome = true
  no_frame_of_aborted : r.aborted = true → r.frame.isSome = false

/-- A record with an error but no accepted sample is of a missed value (R172). -/
theorem DecState.poll_error_unaccepted {d : DecState} {smp : Option Sample} {e : DecErr}
    (h : (d.poll smp).1.outcome = .error e) (hacc : (d.poll smp).1.accepted = false) :
    e.kind = .missedPolledValue := by
  rcases DecState.poll_error h with ⟨hcode, -⟩ | ⟨-, -, n, hr⟩ | ⟨-, n, sym, c, f, hr⟩
  · cases hk : e.kind <;> simp_all [ErrKind.code]
  · rw [hr] at hacc
    cases hacc
  · rw [hr] at hacc
    cases hacc

theorem aborted_of_frame {fb rest : List Symbol} {f : Frame} {ab : Bool}
    (h : extractFrame fb = (some f, ab, rest)) : ab = false := by
  rcases extractFrame_cases fb with ⟨hx, -⟩ | ⟨_, -, -, -, hx⟩ | ⟨_, _, -, -, -, hx⟩ <;>
    rw [hx] at h <;> cases h
  rfl

theorem DecState.accept_staged (d : DecState) (p : Sample) : (d.accept p).1.Staged := by
  rcases d.accept_cases p with ⟨-, hacc⟩ | ⟨-, ⟨-, hacc⟩ | ⟨-, ⟨e, -, hacc⟩ |
    ⟨-, ⟨ab, rest, -, hacc⟩ | ⟨f, ab, rest, hex, ⟨e, -, hacc⟩ | ⟨dt, -, hacc⟩⟩⟩⟩⟩ <;> rw [hacc]
  · constructor <;> simp [Poll.none, PollEnd.isSynced]
  · constructor <;> simp [scoredPoll, Poll.none, PollEnd.isSynced]
  · constructor <;> simp [scoredPoll, Poll.none, PollEnd.isSynced]
  · constructor <;> simp [symbolPoll, scoredPoll, Poll.none, PollEnd.isSynced]
  · constructor <;> simp [symbolPoll, scoredPoll, aborted_of_frame hex]
  · constructor <;> simp [symbolPoll, scoredPoll, aborted_of_frame hex]

theorem DecState.poll_staged (d : DecState) (smp : Option Sample) : (d.poll smp).1.Staged := by
  rcases d.poll_cases smp with hp | ⟨p, l, -, -, -, -, hp⟩ | ⟨p, -, -, hp⟩ <;> rw [hp]
  · constructor <;> simp [Poll.none, PollEnd.isSynced]
  · constructor <;> simp [Poll.none, PollEnd.isSynced]
  · exact d.accept_staged p

/-! ### The flags of an UPDATE (R68, R193, R197, R212) -/

theorem PollEnd.not_synced_of_error {o : PollEnd} (h : o.isError = true) : o.isSynced = false := by
  cases o <;> simp_all [PollEnd.isError, PollEnd.isSynced]

theorem PollEnd.isError_iff {o : PollEnd} : o.isError = true ↔ ∃ e, o = .error e := by
  cases o <;> simp [PollEnd.isError]

theorem Poll.outputs_rspData (r : Poll) (w : Word) : (r.outputs w).rspData = w := by
  unfold Poll.outputs
  split <;> rfl

theorem Poll.outputs_rtcWreq (r : Poll) (w : Word) :
    (r.outputs w).rtcWreq = r.outcome.isSynced := by
  unfold Poll.outputs
  cases r.outcome <;> rfl

/-- The flags of an UPDATE from `s`. -/
def State.flags (s : State) : UpdateFlags :=
  updateFlags (s.dec.poll s.hw.pub).1 s.rtc.wack s.update.clk.datetime s.clk.phase
    s.update.clk.phase

theorem State.update_rspData (s : State) : s.update.out.rspData = statusWord s.flags := by
  unfold State.flags
  rw [State.update_eq]
  exact Poll.outputs_rspData _ _

theorem State.update_rtcWreq (s : State) :
    s.update.out.rtcWreq = (s.dec.poll s.hw.pub).1.outcome.isSynced := by
  rw [State.update_eq]
  exact Poll.outputs_rtcWreq _ _

theorem State.update_lasterr {s : State} {e : DecErr}
    (h : (s.dec.poll s.hw.pub).1.outcome = .error e) : s.update.clk.lasterr = some e := by
  rw [State.update_eq]
  simp only [ClockAgg.merged, State.decPoll_lasterr, h]

/-- The phase changes only in an evaluation, which needs the time (R197). -/
theorem State.update_phase_of_no_time {s : State} (h : s.update.clk.datetime = none) :
    s.update.clk.phase = s.clk.phase := by
  rw [State.update_eq] at h ⊢
  simp only [ClockAgg.merged] at h
  simp only [ClockAgg.phaseAfter, ClockAgg.merged, h]

/-- Settles O36: the bits of the stages follow the record, those of the RTC and the phase their flags. -/
theorem statusBitsImplyEachOther : Obligations.StatusBitsImplyEachOther := by
  intro s
  have hstaged := s.dec.poll_staged s.hw.pub
  obtain ⟨b0, b1, b2, b3, b4, b5, b6, b7, b8, b9, b10, b11⟩ := statusWord_bits s.flags
  refine ⟨s.update, rfl, ?_⟩
  simp only [State.update_rspData, State.update_rtcWreq, b0, b1, b2, b3, b4, b5, b6, b7, b8, b9, b10,
    b11]
  refine ⟨statusWord_high s.flags, hstaged.frame_of_sync, hstaged.symbol_of_frame,
    hstaged.peak_of_symbol, hstaged.score_of_peak, hstaged.accepted_of_score, ?fabort,
    PollEnd.not_synced_of_error, ?missed, rfl, rfl, ?ack, ?phase⟩
  case fabort => exact fun h => ⟨hstaged.symbol_of_aborted h, hstaged.no_frame_of_aborted h⟩
  case missed =>
    intro herr hacc
    obtain ⟨e, he⟩ := PollEnd.isError_iff.mp herr
    exact ⟨e, State.update_lasterr he, DecState.poll_error_unaccepted he hacc⟩
  case ack => exact fun h => (Bool.and_eq_true_iff.mp h).1
  case phase =>
    intro hchanged
    simp only [State.flags, updateFlags, decide_eq_true_eq] at hchanged
    simp only [State.flags, updateFlags]
    by_contra htime
    exact hchanged (State.update_phase_of_no_time (by simpa using htime))

/-! ### The RTC payload: its bytes, and numbers through BCD (R76, R195) -/

theorem bcd_toNat {v : Nat} (h : v ≤ 99) : (bcd v).toNat = v / 10 * 16 + v % 10 := by
  simp only [bcd, BitVec.toNat_ofNat]
  omega

theorem bcdOk_bcd {v : Nat} (h : v ≤ 99) : bcdOk (bcd v) = true := by
  simp only [bcdOk, bcd_toNat h, Bool.and_eq_true, decide_eq_true_eq]
  omega

theorem unbcd_bcd {v : Nat} (h : v ≤ 99) : unbcd (bcd v) = v := by
  simp only [unbcd, bcd_toNat h]
  omega

theorem payloadByte_append (b6 b5 b4 b3 b2 b1 b0 : BitVec 8) :
    payloadByte (b6 ++ b5 ++ b4 ++ b3 ++ b2 ++ b1 ++ b0) 0 = b0 ∧
    payloadByte (b6 ++ b5 ++ b4 ++ b3 ++ b2 ++ b1 ++ b0) 1 = b1 ∧
    payloadByte (b6 ++ b5 ++ b4 ++ b3 ++ b2 ++ b1 ++ b0) 2 = b2 ∧
    payloadByte (b6 ++ b5 ++ b4 ++ b3 ++ b2 ++ b1 ++ b0) 3 = b3 ∧
    payloadByte (b6 ++ b5 ++ b4 ++ b3 ++ b2 ++ b1 ++ b0) 4 = b4 ∧
    payloadByte (b6 ++ b5 ++ b4 ++ b3 ++ b2 ++ b1 ++ b0) 5 = b5 ∧
    payloadByte (b6 ++ b5 ++ b4 ++ b3 ++ b2 ++ b1 ++ b0) 6 = b6 := by
  refine ⟨?_, ?_, ?_, ?_, ?_, ?_, ?_⟩ <;>
    simp only [payloadByte, BitVec.extractLsb'_append_eq_of_le, Nat.reduceLeDiff, Nat.reduceSub,
      Nat.reduceMul, BitVec.extractLsb'_append_eq_right, BitVec.extractLsb'_eq_self]

/-- Byte 0 is the second, byte 3 the weekday, byte 6 the year (R76). -/
theorem payloadByte_packDatetime (dt : Datetime) :
    payloadByte (packDatetime dt) 0 = secondByte dt.time.second ∧
    payloadByte (packDatetime dt) 1 = bcd dt.time.minute.toNat ∧
    payloadByte (packDatetime dt) 2 = bcd dt.time.hour.toNat ∧
    payloadByte (packDatetime dt) 3 = 0#5 ++ dt.date.weekday ∧
    payloadByte (packDatetime dt) 4 = bcd dt.date.day.toNat ∧
    payloadByte (packDatetime dt) 5 = bcd dt.date.month.toNat ∧
    payloadByte (packDatetime dt) 6 = bcd dt.date.year.toNat :=
  payloadByte_append _ _ _ _ _ _ _

theorem weekdayByte_toNat (weekday : BitVec 3) :
    (0#5 ++ weekday : BitVec 8).toNat = weekday.toNat := by
  refine (append_toNat 0#5 weekday).trans ?_
  simp

theorem payloadInRange_of_wf {date : Date} {time : Time} {sec : BitVec 6} (hdate : date.wf = true)
    (htime : time.wf = true) (hsec : time.second = some sec) :
    payloadInRange sec.toNat time.minute.toNat time.hour.toNat date.weekday.toNat date.day.toNat
      date.month.toNat = true := by
  obtain ⟨hday, hmonth, hmonth', -, hweekday⟩ := (date_wf_iff _).mp hdate
  obtain ⟨hhour, hminute, hsecond⟩ := (time_wf_iff _).mp htime
  have hsec' := hsecond sec hsec
  have hday' := date.day.isLt
  have hweekday' := date.weekday.isLt
  simp only [payloadInRange, Bool.and_eq_true, decide_eq_true_eq]
  omega

/-- Settles O40: each byte of the payload gives back its field, and the fields are in range. -/
theorem unpackOfPackIsTheDatetime : Obligations.UnpackOfPackIsTheDatetime := by
  rintro ⟨date, ⟨hour, minute, second⟩⟩ hwf hpresent
  obtain ⟨sec, rfl⟩ := Option.isSome_iff_exists.mp hpresent
  obtain ⟨hdate, htime⟩ := (datetime_wf_iff _).mp hwf
  have hrange := payloadInRange_of_wf hdate htime rfl
  obtain ⟨-, -, -, hyear, -⟩ := (date_wf_iff _).mp hdate
  have hsec : sec.toNat ≤ 99 := by omega
  have hminute : minute.toNat ≤ 99 := by omega
  have hhour : hour.toNat ≤ 99 := by omega
  have hday : date.day.toNat ≤ 99 := by omega
  have hmonth : date.month.toNat ≤ 99 := by omega
  obtain ⟨b0, b1, b2, b3, b4, b5, b6⟩ := payloadByte_packDatetime
    ⟨date, ⟨hour, minute, some sec⟩⟩
  simp only [secondByte] at b0
  simp only [unpackDatetime, b0, b1, b2, b3, b4, b5, b6, weekdayByte_toNat, bcdOk_bcd hsec,
    bcdOk_bcd hminute, bcdOk_bcd hhour, bcdOk_bcd hday, bcdOk_bcd hmonth, bcdOk_bcd hyear,
    unbcd_bcd hsec, unbcd_bcd hminute, unbcd_bcd hhour, unbcd_bcd hday, unbcd_bcd hmonth,
    unbcd_bcd hyear, hrange, Bool.and_self, if_true, BitVec.ofNat_toNat, BitVec.setWidth_eq]

end Sys2Proof.Machine

namespace Sys2Proof.Machine

/-! ### The meanings of the HardwareClock's operations (R91 to R95; entry 9) -/

theorem exec_tick (pin : Bool) (s : State) :
    exec (.tick pin) s = .next { s with hw := s.hw.tick pin } := rfl

theorem exec_tsub (a b : Timer) (s : State) :
    exec (.tsub a b) s = .next (s.handOn (.delta (timerSub a b))) := rfl

theorem exec_latestSample (s : State) :
    exec .latestSample s = .next (s.handOn (.sample s.hw.pub)) := rfl

theorem exec_currentTimer (s : State) :
    exec .currentTimer s = .next (s.handOn (.timer s.hw.timer)) := rfl

/-- Settles O10: each read only hands on its value. -/
theorem samplingReadsHaveNoSideEffect : Obligations.SamplingReadsHaveNoSideEffect :=
  fun s => ⟨exec_latestSample s, exec_currentTimer s⟩

/-! ### The Timer after one tick and after many (R91, R92) -/

/-- On Timer values the general form of R92 is the wrap from `TIMER_MAX` to 1. -/
theorem timerNext_eq {t : Timer} (h : t.toNat ≤ 65520) :
    timerNext t = if t = 65520#16 then 1#16 else t + 1#16 := by
  apply BitVec.eq_of_toNat_eq
  rw [timerNext_toNat h]
  by_cases hmax : t = 65520#16
  · simp [hmax]
  · have hne : t.toNat ≠ 65520 := fun heq => hmax (BitVec.eq_of_toNat_eq heq)
    rw [if_neg hne, if_neg hmax, BitVec.toNat_add_of_lt (by simp; omega)]
    rfl

/-- The Timer counts through `1..TIMER_MAX`; only the cold-start 0 before its first tick lies outside. -/
theorem timerNext_iterate_toNat {t : Timer} {n : Nat} (h : t.toNat ≤ 65520)
    (hpos : 0 < t.toNat + n) :
    (timerNext^[n] t).toNat = (t.toNat + n - 1) % 65520 + 1 := by
  induction n generalizing t with
  | zero =>
    rw [Function.iterate_zero_apply]
    omega
  | succ n ih =>
    have hnext := timerNext_toNat h
    rw [Function.iterate_succ_apply, ih (by split at hnext <;> omega) (by split at hnext <;> omega)]
    split at hnext <;> omega

/-- Timer subtraction counts the ticks modulo `TIMER_MAX`; from the cold-start 0 only up to the first
wrap, since no tick leads back to 0. -/
theorem timerSub_iterate_timerNext {t : Timer} {n : Nat} (h : t.toNat ≤ 65520)
    (hcold : t.toNat = 0 → n < 65520) : timerSub (timerNext^[n] t) t = n % 65520 := by
  rcases Nat.eq_zero_or_pos n with rfl | hn
  · simp [timerSub_of_le]
  · have hticks := timerNext_iterate_toNat (n := n) h (by omega)
    by_cases hle : t.toNat ≤ (timerNext^[n] t).toNat
    · rw [timerSub_of_le hle]
      omega
    · rw [timerSub_of_lt (Nat.lt_of_not_le hle)]
      omega

/-- Settles O8: the two branches of the difference, and the number of ticks it measures. -/
theorem timerSubtractionMeasuresTicks : Obligations.TimerSubtractionMeasuresTicks := by
  intro a b s ha hb
  have hticks : ∀ n : Nat, b ≠ 0#16 → timerNext^[n] b = a → timerSub a b = n % 65520 := by
    rintro n hne rfl
    exact timerSub_iterate_timerNext hb fun hzero => absurd (BitVec.eq_of_toNat_eq hzero) hne
  refine ⟨timerSub a b, exec_tsub a b s, timerSub_of_le, timerSub_of_lt, ?_, ?_, ?_, hticks⟩ <;>
  · rcases Nat.lt_or_ge a.toNat b.toNat with h | h
    · rw [timerSub_of_lt h]
      omega
    · rw [timerSub_of_le h]
      omega

/-! ### One tick, and the ticks of a period (R92, R93) -/

/-- Settles O7: the Timer's wrap is the one R92 states, and the rest is the definition of the tick. -/
theorem tickAdvancesTimerAndVotes : Obligations.TickAdvancesTimerAndVotes := by
  intro pin s h
  rw [exec_tick, ← timerNext_eq h]
  rfl

theorem HwClock.tick_of_period_end {h : HwClock} (pin : Bool)
    (hend : (timerNext h.timer).toNat % 20 = 0) :
    h.tick pin = { timer := timerNext h.timer, vote := 0,
                   pub := some { stamp := timerNext h.timer,
                                 level := decide (0 < h.vote + (if pin then 1 else -1)) } } :=
  if_pos hend

theorem HwClock.tick_of_within_period {h : HwClock} (pin : Bool)
    (hwithin : (timerNext h.timer).toNat % 20 ≠ 0) :
    h.tick pin = { timer := timerNext h.timer, vote := h.vote + (if pin then 1 else -1),
                   pub := h.pub } :=
  if_neg hwithin

/-- The ticks that complete a period publish the sign of the whole vote: the one before them, and one up
for each pin at 1, one down for each pin at 0. -/
theorem HwClock.foldl_tick_to_period_end {h : HwClock} {pins : List Bool}
    (htimer : h.timer.toNat ≤ 65520) (hlen : h.timer.toNat % 20 + pins.length = 20) :
    pins.foldl HwClock.tick h =
      { timer := timerNext^[pins.length] h.timer, vote := 0,
        pub := some { stamp := timerNext^[pins.length] h.timer,
                      level := decide (pins.length < h.vote + 2 * pins.count true) } } := by
  induction pins generalizing h with
  | nil =>
    rw [List.length_nil] at hlen
    omega
  | cons pin pins ih =>
    have hnext := timerNext_toNat htimer
    rw [List.length_cons] at hlen
    rw [List.foldl_cons, List.length_cons, Function.iterate_succ_apply]
    by_cases hend : (timerNext h.timer).toNat % 20 = 0
    · obtain rfl : pins = [] := List.length_eq_zero_iff.mp (by split at hnext <;> omega)
      rw [HwClock.tick_of_period_end pin hend]
      cases pin <;> simp
      omega
    · have hle : (timerNext h.timer).toNat ≤ 65520 := by split at hnext <;> omega
      have hrest : (timerNext h.timer).toNat % 20 + pins.length = 20 := by split at hnext <;> omega
      rw [HwClock.tick_of_within_period pin hend, ih]
      case htimer => exact hle
      case hlen => exact hrest
      cases pin <;> simp <;> omega

/-! ### A run of ticks (R5, R92; entry 1) -/

theorem step_tick {s : State} {pin : Bool} {rest : List Event} (h : s.inbox = .tick pin :: rest) :
    step s = .next { s.took rest with hw := s.hw.tick pin } :=
  step_of_fetch_run (fetch_cons h)

theorem run_succ {s t : State} (k : Nat) (h : step s = .next t) :
    Host.Core.run Sys2Proof.core (k + 1) s = Host.Core.run Sys2Proof.core k t := by
  simp only [Host.Core.run, Sys2Proof.core, h]

/-- Ticks one after the other write the HardwareClock only. -/
theorem run_ticks {s : State} {pins : List Bool} {rest : List Event}
    (h : s.inbox = pins.map Event.tick ++ rest) :
    Host.Core.run Sys2Proof.core pins.length s
      = .next { s.took rest with hw := pins.foldl HwClock.tick s.hw } := by
  induction pins generalizing s with
  | nil =>
    obtain rfl : s.inbox = rest := h
    rfl
  | cons pin pins ih => exact (run_succ _ (step_tick h)).trans (ih rfl)

/-- Settles O9: the run is the twenty ticks of the HardwareClock, which complete a period begun with vote
0, so the vote is positive when more than half of the pins are 1. -/
theorem onePeriodPublishesTheMajority : Obligations.OnePeriodPublishesTheMajority := by
  intro s pins rest hlen hin htimer hperiod hvote
  have hclock := HwClock.foldl_tick_to_period_end (pins := pins) htimer (by omega)
  have hmajority : ((20 : Nat) : Int) < s.hw.vote + 2 * pins.count true ↔ 10 < pins.count true := by
    omega
  have hrun := run_ticks hin
  rw [hclock, hlen] at hrun
  simp only [hmajority] at hrun
  exact ⟨timerNext^[20] s.hw.timer, timerSub_iterate_timerNext htimer (fun _ => by decide), hrun⟩

end Sys2Proof.Machine

namespace Sys2Proof.Machine

/-! ### HIST.SHIFT on the bits of the window (R41, R100) -/

theorem exec_histShift (b : Bool) (s : State) :
    exec (.histShift b) s = .next (s.setDec (s.dec.histShift b)) := rfl

theorem DecState.histShift_getLsbD_zero (d : DecState) (b : Bool) :
    (d.histShift b).w.getLsbD 0 = b := by
  simp [DecState.histShift]

theorem DecState.histShift_getLsbD_succ (d : DecState) (b : Bool) {k : Nat} (h : k + 1 < 200) :
    (d.histShift b).w.getLsbD (k + 1) = d.w.getLsbD k := by
  simp [DecState.histShift, h, BitVec.getLsbD_eq_getElem (Nat.lt_of_succ_lt h)]

/-- Settles O11: age 0 is the bit shifted in, age `k + 1` is the old age `k`, and the operation is one
update of the Decoder sub-state. -/
theorem histShiftAgesEverySample : Obligations.HistShiftAgesEverySample := by
  intro b s
  refine ⟨s.setDec (s.dec.histShift b), exec_histShift b s, s.dec.histShift_getLsbD_zero b, ?_,
    s.dec.histShift_wcount_toNat b, rfl⟩
  intro k hpos hlt
  obtain ⟨k, rfl⟩ := Nat.exists_eq_add_of_le' hpos
  exact s.dec.histShift_getLsbD_succ b hlt

/-! ### CORR.SCORE as a count of ages (R101 to R103) -/

theorem exec_corrScore (s : State) :
    exec .corrScore s =
      .next (s.handOn (.score (if s.dec.windowFull then some (corrScore s.dec.w) else none))) := rfl

/-- R103: in every 50 ages the pattern is 0 at the first ten and 1 at the others. -/
theorem pattern_getLsbD : ∀ k < 200, Config.core1.pattern.getLsbD k = decide (10 ≤ k % 50) := by
  decide +kernel

theorem corrScore_eq_countP (w : Window) :
    corrScore w = (List.range 200).countP fun k => !w.getLsbD k && decide (10 ≤ k % 50) := by
  unfold corrScore popcount
  refine List.countP_congr fun k hk => ?_
  have hlt := List.mem_range.mp hk
  simp only [BitVec.getLsbD_and, BitVec.getLsbD_not, pattern_getLsbD k hlt, hlt, decide_true,
    Bool.true_and]

/-- The quiet and the active ages under the pattern are together its 160 ages. -/
theorem countP_quiet_add_active (w : Window) :
    ((List.range 200).countP fun k => !w.getLsbD k && decide (10 ≤ k % 50)) +
      ((List.range 200).countP fun k => w.getLsbD k && decide (10 ≤ k % 50)) = 160 := by
  have hpattern : ((List.range 200).countP fun k => decide (10 ≤ k % 50)) = 160 := by
    decide +kernel
  have hsplit := List.countP_eq_countP_filter_add (List.range 200)
    (fun k => decide (10 ≤ k % 50)) w.getLsbD
  simp only [List.countP_filter, Bool.and_comm] at hsplit ⊢
  omega

/-- Settles O12: the score is the count of quiet ages under the pattern, and only a full window has
one. -/
theorem corrScoreCountsQuietAges : Obligations.CorrScoreCountsQuietAges := by
  intro s _
  refine ⟨_, exec_corrScore s, fun hfilling => ?_, fun hfull => ?_⟩
  · have hwindow : ¬ s.dec.windowFull = true :=
      fun h => Nat.not_le.mpr hfilling (s.dec.windowFull_iff.mp h)
    exact if_neg hwindow
  · have hwindow : s.dec.windowFull = true := s.dec.windowFull_iff.mpr hfull.ge
    refine ⟨corrScore s.dec.w, if_pos hwindow, ?_⟩
    rw [← List.countP_eq_length_filter, ← List.countP_eq_length_filter]
    have hscore := corrScore_eq_countP s.dec.w
    exact ⟨hscore, hscore ▸ countP_quiet_add_active s.dec.w⟩

/-! ### An accepted sample before the score ring is full (R102, R111, R172) -/

/-- The Decoder sub-state `n` accepted samples after the empty one, up to the 248th: the window fills,
then the ring, and the stages after them have not begun. -/
structure DecState.Filling (d : DecState) (n : Nat) : Prop where
  wcount : d.wcount.toNat = min n 200
  ring : d.s.length = n - 199
  prevHeight : d.prevHeight = 0#8
  latch : d.latch = false
  lastPeak : d.lastPeak = none
  fb : d.fb = []

theorem DecState.empty_filling : DecState.empty.Filling 0 :=
  ⟨rfl, rfl, rfl, rfl, rfl, rfl⟩

/-- The sample is the first, or comes one period after the one before it (R172, R173). -/
def DecState.Due (d : DecState) (p : Sample) : Prop :=
  ∀ l ∈ d.lastSmp, timerSub p.stamp l = 20 ∧ p.stamp ≠ l

theorem DecState.poll_of_due {d : DecState} {p : Sample} (h : d.Due p) :
    d.poll (some p) = d.accept p := by
  cases hl : d.lastSmp with
  | none => simp [DecState.poll, hl]
  | some l =>
    obtain ⟨hdelta, hne⟩ := h l hl
    simp [DecState.poll, hl, hdelta, hne]

/-- The push of a score before the 249th sample does not fill the ring, so the detector stays inactive
(R111). -/
theorem DecState.Filling.phaseStep_eq {d : DecState} {n : Nat} (h : d.Filling n) (hn : n < 248)
    (p : Sample) :
    (d.fed p).phaseStep (d.fedScore p) =
      (false, false, { d.fed p with s := pushScore d.s (d.fedScore p) }) := by
  have hring := h.ring
  have hpush := pushScore_length d.s (d.fedScore p)
  exact DecState.phaseStep_inactive (d := d.fed p) (d.fedScore p)
    (show (pushScore d.s (d.fedScore p)).length < 50 by omega)

theorem DecState.Filling.accept {d : DecState} {n : Nat} (h : d.Filling n) (hn : n < 248)
    (p : Sample) :
    (d.accept p).1.outcome = .nothing ∧ (d.accept p).2.lastSmp = some p.stamp ∧
      (d.accept p).2.Filling (n + 1) := by
  have hstep := h.phaseStep_eq hn p
  have hfed : (d.fed p).wcount.toNat = min (d.wcount.toNat + 1) 200 :=
    d.histShift_wcount_toNat p.level
  obtain ⟨hcount, hring, hheight, hlatch, hpeak, hfb⟩ := h
  rcases d.accept_cases p with ⟨hwindow, hacc⟩ | ⟨hwindow, ⟨-, hacc⟩ | ⟨hsignalled, -⟩⟩
  · rw [hacc]
    exact ⟨rfl, rfl, hfed.trans (by omega), hring.trans (by omega), hheight, hlatch, hpeak, hfb⟩
  · have hpush := pushScore_length d.s (d.fedScore p)
    rw [hacc, DecState.detected, hstep]
    exact ⟨rfl, rfl, hfed.trans (by omega), hpush.trans (by omega), hheight, hlatch, hpeak, hfb⟩
  · rw [hstep] at hsignalled
    cases hsignalled

/-! ### A run of DEC.POLL over samples one period apart -/

theorem exec_decPoll (smp : Option Sample) (s : State) :
    exec (.decPoll smp) s = .next ((s.decPoll smp).2.handOn (.poll (s.decPoll smp).1)) := rfl

theorem execAll_cons {i : Instr} {s t : State} (rest : List Instr) (h : exec i s = .next t) :
    execAll (i :: rest) s = execAll rest t := by
  simp only [execAll, h, andThen]

theorem State.decPoll_of_nothing {s : State} {smp : Option Sample}
    (h : (s.dec.poll smp).1.outcome = .nothing) :
    (s.decPoll smp).2 = s.setDec (s.dec.poll smp).2 := by
  simp only [State.decPoll_eq, h]

theorem exec_decPoll_filling {s : State} {n : Nat} {p : Sample} (hfilling : s.dec.Filling n)
    (hdue : s.dec.Due p) (hn : n < 248) :
    ∃ t, exec (.decPoll (some p)) s = .next t ∧ t.dec.lastSmp = some p.stamp ∧
      t.dec.Filling (n + 1) ∧ t.clk = s.clk := by
  obtain ⟨hend, hsmp, hfilled⟩ := hfilling.accept hn p
  rw [← DecState.poll_of_due hdue] at hend hsmp hfilled
  refine ⟨_, exec_decPoll (some p) s, ?_⟩
  rw [State.decPoll_of_nothing hend]
  exact ⟨hsmp, hfilled, rfl⟩

theorem consecutive_cons_iff (p : Sample) (rest : List Sample) :
    Consecutive (p :: rest) ↔
      (∀ q ∈ rest.head?, timerSub q.stamp p.stamp = 20 ∧ q.stamp ≠ p.stamp) ∧ Consecutive rest := by
  cases rest <;> simp [Consecutive]

/-- Each sample makes the next one due, so all are accepted and the filling goes on. -/
theorem execAll_decPoll_filling {samples : List Sample} {s : State} {n : Nat}
    (hfilling : s.dec.Filling n) (hdue : ∀ p ∈ samples.head?, s.dec.Due p)
    (hconsecutive : Consecutive samples) (hlen : n + samples.length ≤ 248) :
    ∃ t, execAll (samples.map fun p => .decPoll (some p)) s = .next t ∧
      t.dec.Filling (n + samples.length) ∧ t.clk = s.clk := by
  induction samples generalizing s n with
  | nil => exact ⟨s, rfl, hfilling, rfl⟩
  | cons p rest ih =>
    rw [List.length_cons, ← Nat.succ_add_eq_add_succ] at hlen ⊢
    obtain ⟨hspaced, hrest⟩ := (consecutive_cons_iff p rest).mp hconsecutive
    obtain ⟨u, hexec, hsmp, hfilled, hclk⟩ := exec_decPoll_filling hfilling (hdue p rfl) (by omega)
    have hnext : ∀ q ∈ rest.head?, u.dec.Due q := by simpa [DecState.Due, hsmp] using hspaced
    obtain ⟨t, hrun, ht, hclk'⟩ := ih hfilled hnext hrest hlen
    exact ⟨t, (execAll_cons _ hexec).trans hrun, ht, hclk'.trans hclk⟩

/-- Settles O32: the run starts from `0` accepted samples, where no sample is remembered yet. -/
theorem windowThenRingFill : Obligations.WindowThenRingFill := by
  intro samples s hempty hconsecutive hlen
  have hfilling : s.dec.Filling 0 := hempty ▸ DecState.empty_filling
  have hdue : ∀ p ∈ samples.head?, s.dec.Due p := by simp [DecState.Due, hempty, DecState.empty]
  obtain ⟨t, hrun, ht, hclk⟩ := execAll_decPoll_filling hfilling hdue hconsecutive (by omega)
  rw [Nat.zero_add] at ht
  exact ⟨t, hrun, ht.wcount, ht.ring, ht.prevHeight, ht.latch, ht.lastPeak, ht.fb, hclk⟩

end Sys2Proof.Machine

namespace Sys2Proof.Machine

/-! ### What PHASE.STEP makes of the ring, the height, the peak and the latch (R110 to R113) -/

theorem exec_phaseStep (x : Score) (s : State) :
    exec (.phaseStep x) s =
      .next ((s.setDec (s.dec.phaseStep x).2.2).handOn (.peak (s.dec.phaseStep x).2.1)) := rfl

theorem DecState.phaseStep_ring (d : DecState) (x : Score) :
    (d.phaseStep x).2.2.s = pushScore d.s x := by
  obtain ⟨-, -, hring, -⟩ := d.phaseStep_frame x
  exact hring

/-- The push leaves a ring that is still filling, or a full one (R110, R111). -/
theorem pushScore_filling_or_full (ring : List Score) (x : Score) :
    (pushScore ring x).length < 50 ∨ (pushScore ring x).length = 50 := by
  have := pushScore_length ring x
  omega

/-- The three elements that PHASE.STEP writes (R110, R113). -/
theorem DecState.phaseStep_writes (d : DecState) (x : Score) :
    (d.phaseStep x).2.2 = { d with
      s := (d.phaseStep x).2.2.s
      prevHeight := (d.phaseStep x).2.2.prevHeight
      latch := (d.phaseStep x).2.2.latch } := by
  rcases pushScore_filling_or_full d.s x with hfilling | hfull
  · rw [DecState.phaseStep_inactive x hfilling]
  · rw [DecState.phaseStep_active x hfull]

/-- The detector is one-shot: a peak comes only with the latch clear (R113). -/
theorem DecState.latch_of_phaseStep_peak {d : DecState} {x : Score}
    (h : (d.phaseStep x).2.1 = true) : d.latch = false := by
  rw [DecState.phaseStep_active x (DecState.phaseStep_peak h)] at h
  simp only [Bool.and_eq_true, Bool.not_eq_true'] at h
  obtain ⟨-, hlatch⟩ := h
  exact hlatch

/-- Until the height is 0 the latch remembers every peak (R113). -/
theorem DecState.phaseStep_latch_of_height {d : DecState} {x : Score}
    (h : (d.phaseStep x).2.2.prevHeight ≠ 0#8) :
    (d.phaseStep x).2.2.latch = (d.latch || (d.phaseStep x).2.1) := by
  rcases pushScore_filling_or_full d.s x with hfilling | hfull
  · rw [DecState.phaseStep_inactive x hfilling]
    exact (Bool.or_false d.latch).symm
  · rw [DecState.phaseStep_active x hfull] at h ⊢
    exact if_neg h

/-- Settles O13: the ring after the push is full or it is not, and the lemmas for the inactive and
the active detector say the rest. -/
theorem phaseStepPushesThenDetects : Obligations.PhaseStepPushesThenDetects := by
  intro x s _
  have hring := s.dec.phaseStep_ring x
  refine ⟨_, (s.dec.phaseStep x).2.1, exec_phaseStep x s, ?frame, ?push, ?pushFull, ?inactive,
    ?active⟩ <;> simp only [State.handOn_dec, State.setDec_dec, hring]
  case frame =>
    have hwrites := s.dec.phaseStep_writes x
    rw [hring] at hwrites
    exact congrArg (fun d => (s.setDec d).handOn (.peak (s.dec.phaseStep x).2.1)) hwrites
  case push => exact pushScore_of_lt x
  case pushFull => exact pushScore_of_full x
  case inactive =>
    intro hfilling
    rw [DecState.phaseStep_inactive x hfilling]
    exact ⟨rfl, rfl, rfl⟩
  case active =>
    intro hfull
    rw [DecState.phaseStep_active x hfull]
    refine ⟨excessHeight_toNat _ x, by simp, ?latch⟩
    case latch =>
      by_cases hzero : excessHeight (pushScore s.dec.s x) x = 0#8 <;> simp [hzero]

/-! ### A constant score stream (R112, R114 (b)) -/

theorem ringAverage_of_constant {ring : List Score} {c : Score} (hring : ∀ x ∈ ring, x = c)
    (hfull : ring.length = 50) : ringAverage ring = c.toNat := by
  have hmap : ∀ n ∈ ring.map BitVec.toNat, n = c.toNat :=
    List.forall_mem_map.mpr fun x hx => congrArg BitVec.toNat (hring x hx)
  rw [ringAverage, List.sum_eq_card_nsmul _ _ hmap, List.length_map, hfull]
  exact Nat.mul_div_cancel_left c.toNat (by decide)

/-- A score equal to the mean is below the threshold (R112). -/
theorem excessHeight_of_constant {ring : List Score} {c : Score} (hring : ∀ x ∈ ring, x = c)
    (hfull : ring.length = 50) : excessHeight ring c = 0#8 := by
  apply BitVec.eq_of_toNat_eq
  rw [excessHeight_toNat, ringAverage_of_constant hring hfull, BitVec.toNat_zero]
  omega

theorem pushScore_of_constant {ring : List Score} {c : Score} (hring : ∀ x ∈ ring, x = c) :
    ∀ x ∈ pushScore ring c, x = c :=
  fun x hx => (mem_pushScore hx).elim (hring x) id

/-- With the height at 0 before and after, nothing falls: no peak, and a clear latch stays clear
(R113, R114). -/
theorem DecState.phaseStep_of_constant {d : DecState} {c : Score} (hring : ∀ x ∈ d.s, x = c)
    (hheight : d.prevHeight = 0#8) :
    (d.phaseStep c).2.1 = false ∧ (d.phaseStep c).2.2.prevHeight = 0#8 ∧
      (d.latch = false → (d.phaseStep c).2.2.latch = false) := by
  rcases pushScore_filling_or_full d.s c with hfilling | hfull
  · rw [DecState.phaseStep_inactive c hfilling]
    exact ⟨rfl, hheight, id⟩
  · have hzero := excessHeight_of_constant (pushScore_of_constant hring) hfull
    rw [DecState.phaseStep_active c hfull, hzero, hheight]
    exact ⟨rfl, rfl, fun _ => rfl⟩

theorem exec_phaseStep_of_constant {s : State} {c : Score} (hring : ∀ x ∈ s.dec.s, x = c)
    (hheight : s.dec.prevHeight = 0#8) :
    ∃ t, exec (.phaseStep c) s = .next t ∧ t.stage = .peak false ∧ t.dec.prevHeight = 0#8 ∧
      ∀ x ∈ t.dec.s, x = c := by
  obtain ⟨hpeak, hheight', -⟩ := DecState.phaseStep_of_constant hring hheight
  refine ⟨_, exec_phaseStep c s, congrArg StageOut.peak hpeak, hheight', ?_⟩
  rw [State.handOn_dec, State.setDec_dec, DecState.phaseStep_ring]
  exact pushScore_of_constant hring

/-- Settles O14, by induction on the number of steps: each leaves what the next one starts from. -/
theorem constantScoresNeverPeak : Obligations.ConstantScoresNeverPeak := by
  intro c n s hring hheight
  induction n generalizing s with
  | zero =>
    obtain ⟨t, hexec, ht⟩ := exec_phaseStep_of_constant hring hheight
    exact ⟨t, execAll_cons [] hexec, ht⟩
  | succ n ih =>
    obtain ⟨t, hexec, -, hheight', hring'⟩ := exec_phaseStep_of_constant hring hheight
    obtain ⟨u, hrun, hu⟩ := ih t hring' hheight'
    exact ⟨u, (execAll_cons _ hexec).trans hrun, hu⟩

/-! ### At most one peak until the height is 0 (R113, R114 (a)) -/

/-- The latch counts as a peak already signalled: before the height is 0 at most one is left. -/
theorem countP_peakTrace_add_latch_le {d : DecState} {scores : List Score}
    (h : ∀ p ∈ (peakTrace d scores).dropLast, p.2 ≠ 0#8) :
    (peakTrace d scores).countP (fun p => p.1) + d.latch.toNat ≤ 1 := by
  induction scores generalizing d with
  | nil => simpa [peakTrace] using Bool.toNat_le d.latch
  | cons x rest ih =>
    have hshot : (d.phaseStep x).2.1 = true → d.latch = false := DecState.latch_of_phaseStep_peak
    cases rest with
    | nil =>
      cases hpeak : (d.phaseStep x).2.1
      · simpa [peakTrace, hpeak] using Bool.toNat_le d.latch
      · simp [peakTrace, hpeak, hshot hpeak]
    | cons y rest =>
      obtain ⟨hheight, hrest⟩ := List.forall_mem_cons.mp h
      have hbound := ih hrest
      rw [DecState.phaseStep_latch_of_height hheight] at hbound
      rw [peakTrace, List.countP_cons]
      cases hpeak : (d.phaseStep x).2.1
      · simpa [hpeak] using hbound
      · simpa [hpeak, hshot hpeak] using hbound

/-- Settles O15: the bound on peaks and latch together, without the latch. -/
theorem atMostOnePeakUntilHeightReturnsToZero :
    Obligations.AtMostOnePeakUntilHeightReturnsToZero := by
  intro d scores initial last htrace hinitial
  have hdrop : (peakTrace d scores).dropLast = initial := by rw [htrace, List.dropLast_concat]
  exact (Nat.le_add_right _ _).trans (countP_peakTrace_add_latch_le (hdrop ▸ hinitial))

end Sys2Proof.Machine

namespace Sys2Proof.Machine

/-! ### A Decoder that has seen only quiet samples (R101, R112 to R114; Scenario C) -/

/-- The Decoder's part of `State.Quiet`. -/
structure DecState.Quiet (d : DecState) : Prop where
  w : d.w = 0#200
  ring : ∀ x ∈ d.s, x = 160#8
  prevHeight : d.prevHeight = 0#8
  latch : d.latch = false
  lastPeak : d.lastPeak = none
  fb : d.fb = []

theorem DecState.empty_quiet : DecState.empty.Quiet :=
  ⟨rfl, fun _ hx => absurd hx List.not_mem_nil, rfl, rfl, rfl, rfl⟩

/-- A quiet window matches all 160 ages under the pattern (R101, R103). -/
theorem corrScore_zero : corrScore 0#200 = 160 := by
  simpa [corrScore_eq_countP] using countP_quiet_add_active 0#200

theorem DecState.Quiet.fed {d : DecState} {p : Sample} (h : d.Quiet) (hp : p.level = false) :
    (d.fed p).Quiet := by
  obtain ⟨hw, hring, hheight, hlatch, hpeak, hfb⟩ := h
  refine ⟨?window, hring, hheight, hlatch, hpeak, hfb⟩
  case window => simp [DecState.fed, DecState.histShift, hw, hp]

theorem DecState.Quiet.fedScore {d : DecState} {p : Sample} (h : d.Quiet) (hp : p.level = false) :
    d.fedScore p = 160#8 := by
  rw [DecState.fedScore, (h.fed hp).w, corrScore_zero]

/-- PHASE.STEP with a score of 160 on a ring of 160s: R114 (b). -/
theorem DecState.Quiet.phaseStep {d : DecState} (h : d.Quiet) :
    (d.phaseStep 160#8).2.1 = false ∧ (d.phaseStep 160#8).2.2.Quiet := by
  obtain ⟨hpeak, hheight, hlatch⟩ := DecState.phaseStep_of_constant h.ring h.prevHeight
  obtain ⟨hw, -, hring, hlast, -, hfb⟩ := d.phaseStep_frame 160#8
  exact ⟨hpeak, hw.trans h.w, hring ▸ pushScore_of_constant h.ring, hheight, hlatch h.latch,
    hlast.trans h.lastPeak, hfb.trans h.fb⟩

/-- What a quiet poll shows: no symbol, and no sync. -/
structure Poll.Silent (r : Poll) : Prop where
  symbol : r.symbol = Option.none
  unsynced : ∀ dt, r.outcome ≠ .synced dt

/-- The window fills, or the score gives no peak; so no stage after PHASE.STEP runs (R102, R174). -/
theorem DecState.Quiet.accept {d : DecState} {p : Sample} (h : d.Quiet) (hp : p.level = false) :
    (d.accept p).1.Silent ∧ (d.accept p).2.Quiet := by
  obtain ⟨hnoPeak, hstepped⟩ := (h.fed hp).phaseStep
  rw [← h.fedScore hp] at hnoPeak hstepped
  rcases d.accept_cases p with ⟨-, hacc⟩ | ⟨-, ⟨-, hacc⟩ | ⟨hpeak, -⟩⟩
  · rw [hacc]
    exact ⟨⟨rfl, nofun⟩, h.fed hp⟩
  · rw [hacc]
    exact ⟨⟨rfl, nofun⟩, hstepped⟩
  · rw [hnoPeak] at hpeak
    cases hpeak

theorem DecState.Quiet.poll {d : DecState} {smp : Option Sample} (h : d.Quiet)
    (hsmp : ∀ p ∈ smp, p.level = false) : (d.poll smp).1.Silent ∧ (d.poll smp).2.Quiet := by
  rcases d.poll_cases smp with hp | ⟨p, l, -, -, -, -, hp⟩ | ⟨p, hsome, -, hp⟩ <;> rw [hp]
  · exact ⟨⟨rfl, nofun⟩, h⟩
  · exact ⟨⟨rfl, nofun⟩, h⟩
  · exact h.accept (hsmp p hsome)

/-! ### The machine with only quiet samples shown and to come -/

/-- The Clock aggregate's part of `State.Quiet`. -/
structure ClockAgg.Quiet (c : ClockAgg) : Prop where
  lastRadioSync : c.lastRadioSync = none
  lastBit : c.lastBit = none

/-- The HardwareClock's part of `State.Quiet`: its vote cannot publish level 1, nor has it. -/
structure HwClock.Quiet (h : HwClock) : Prop where
  vote : h.vote ≤ 0
  pub : ∀ p ∈ h.pub, p.level = false

theorem State.quiet_iff (s : State) :
    s.Quiet ↔ s.dec.Quiet ∧ s.clk.Quiet ∧ s.hw.Quiet ∧ ∀ e ∈ s.inbox, Event.quiet e = true := by
  constructor
  · rintro ⟨hw, hring, hheight, hlatch, hpeak, hfb, hsync, hbit, hvote, hpub, hinbox⟩
    exact ⟨⟨hw, hring, hheight, hlatch, hpeak, hfb⟩, ⟨hsync, hbit⟩, ⟨hvote, hpub⟩, hinbox⟩
  · rintro ⟨⟨hw, hring, hheight, hlatch, hpeak, hfb⟩, ⟨hsync, hbit⟩, ⟨hvote, hpub⟩, hinbox⟩
    exact ⟨hw, hring, hheight, hlatch, hpeak, hfb, hsync, hbit, hvote, hpub, hinbox⟩

theorem ClockAgg.reset_quiet : ClockAgg.reset.Quiet := ⟨rfl, rfl⟩

theorem HwClock.reset_quiet : HwClock.reset.Quiet := ⟨Int.le_refl 0, nofun⟩

theorem quiet_smp_iff (smp : Option Sample) :
    Event.quiet (.smp smp) = true ↔ ∀ p ∈ smp, p.level = false := by
  cases smp <;> simp [Event.quiet]

theorem quiet_tick_iff (pin : Bool) : Event.quiet (.tick pin) = true ↔ pin = false := by
  simp [Event.quiet]

/-- A tick with the pin quiet lowers the vote, so a period it ends publishes level 0 (R93). -/
theorem HwClock.Quiet.tick {h : HwClock} (hq : h.Quiet) : (h.tick false).Quiet := by
  obtain ⟨hvote, hpub⟩ := hq
  by_cases hend : (timerNext h.timer).toNat % 20 = 0
  · rw [HwClock.tick_of_period_end false hend]
    refine ⟨Int.le_refl 0, ?published⟩
    case published =>
      rintro p ⟨⟩
      simp only [Bool.false_eq_true, if_false, decide_eq_false_iff_not]
      omega
  · rw [HwClock.tick_of_within_period false hend]
    refine ⟨?lowered, hpub⟩
    case lowered =>
      simp only [Bool.false_eq_true, if_false]
      omega

/-- A poll without symbol and sync leaves `last_bit` and `last_radio_sync` (R191, R192). -/
theorem ClockAgg.Quiet.merged {c : ClockAgg} {r : Poll} (h : c.Quiet) (hr : r.Silent)
    (lasterr : Option DecErr) (reading : Option Datetime) : (c.merged r lasterr reading).Quiet := by
  refine ⟨?sync, ?bit⟩
  case sync =>
    simp only [ClockAgg.merged]
    split
    · next dt hout => exact absurd hout (hr.unsynced dt)
    · exact h.lastRadioSync
    · exact h.lastRadioSync
  case bit => simp [ClockAgg.merged, hr.symbol, h.lastBit]

theorem DecState.Quiet.decPoll {s : State} {smp : Option Sample} (h : s.dec.Quiet)
    (hsmp : ∀ p ∈ smp, p.level = false) : (s.decPoll smp).2.dec.Quiet := by
  rw [State.decPoll_dec]
  split
  · exact DecState.empty_quiet
  · exact (h.poll hsmp).2

theorem State.Quiet.update {s : State} (h : s.Quiet) : s.update.Quiet := by
  obtain ⟨hdec, hclk, hhw, hinbox⟩ := s.quiet_iff.mp h
  have hmerged := hclk.merged (hdec.poll hhw.pub).1 (s.decPoll s.hw.pub).2.clk.lasterr s.rtc.reading
  rw [State.update_eq, State.quiet_iff]
  exact ⟨hdec.decPoll hhw.pub, ⟨hmerged.lastRadioSync, hmerged.lastBit⟩, hhw, hinbox⟩

/-- Every command but UPDATE leaves all that the invariant speaks of. -/
theorem command_quiet {i : Instr} {w : Word} {s t : State} (hs : s.Quiet) (hd : decode w = .ok i)
    (h : exec i s = .next t) : t.Quiet := by
  rcases command_cases hd h with rfl | ⟨data, rfl⟩ | ⟨-, rfl⟩ | ⟨-, rfl⟩ | ⟨-, rfl⟩ |
    ⟨-, -, rfl⟩ | ⟨-, -, rfl⟩
  · exact hs
  · exact hs
  · exact hs.update
  all_goals exact hs

theorem State.Quiet.took {s : State} {e : Event} {rest : List Event} (h : s.Quiet)
    (hin : s.inbox = e :: rest) : Event.quiet e = true ∧ (s.took rest).Quiet := by
  obtain ⟨hdec, hclk, hhw, hinbox⟩ := s.quiet_iff.mp h
  rw [hin, List.forall_mem_cons] at hinbox
  exact ⟨hinbox.1, (State.quiet_iff _).mpr ⟨hdec, hclk, hhw, hinbox.2⟩⟩

theorem State.Quiet.setHw {s : State} {h : HwClock} (hs : s.Quiet) (hh : h.Quiet) :
    ({ s with hw := h } : State).Quiet := by
  obtain ⟨hdec, hclk, -, hinbox⟩ := s.quiet_iff.mp hs
  exact (State.quiet_iff _).mpr ⟨hdec, hclk, hh, hinbox⟩

theorem step_quiet {s t : State} (hs : s.Quiet) (h : step s = .next t) : t.Quiet := by
  obtain ⟨-, -, hhw, -⟩ := s.quiet_iff.mp hs
  rcases step_cases h with ⟨-, rfl⟩ | ⟨w, rest, i, hin, hd, hexec⟩ | ⟨w, rest, hin, rfl⟩ |
    ⟨pin, rest, hin, rfl⟩ | ⟨rest, hin, rfl⟩ | ⟨rest, hin, rfl⟩ | ⟨a, rest, hin, rfl⟩ |
    ⟨p, rest, hin, rfl⟩
  · exact hs
  all_goals obtain ⟨hevent, htook⟩ := hs.took hin
  · exact command_quiet htook hd hexec
  · exact htook
  · obtain rfl := (quiet_tick_iff pin).mp hevent
    exact htook.setHw hhw.tick
  · obtain ⟨-, -, -, hinbox⟩ := (State.quiet_iff _).mp htook
    exact (State.quiet_iff _).mpr ⟨DecState.empty_quiet, ClockAgg.reset_quiet, hhw, hinbox⟩
  · exact htook.setHw HwClock.reset_quiet
  · exact htook
  · exact htook.setHw ⟨hhw.vote, (quiet_smp_iff p).mp hevent⟩

/-! ### Runs (R246) -/

/-- No step ends in a fault or a refusal (R246). -/
theorem exists_step_eq_next (s : State) : ∃ t, step s = .next t := by
  cases hin : s.inbox with
  | nil => exact ⟨s, step_of_fetch_settled (fetch_nil hin)⟩
  | cons e rest =>
    cases e with
    | host w =>
      by_cases hw : IllegalWord w
      · exact ⟨_, step_of_illegal hin hw⟩
      · obtain ⟨t, ht, -⟩ := step_of_legal hin hw
        exact ⟨t, ht⟩
    | tick pin => exact ⟨_, step_of_fetch_run (fetch_cons hin)⟩
    | rst => exact ⟨_, step_of_fetch_run (fetch_cons hin)⟩
    | rstClock => exact ⟨_, step_of_fetch_settled (fetch_cons hin)⟩
    | rtc a => exact ⟨_, step_of_fetch_settled (fetch_cons hin)⟩
    | smp p => exact ⟨_, step_of_fetch_settled (fetch_cons hin)⟩

/-- Every run completes, and in a state with any property that each step keeps. -/
theorem run_of_step_keeps {P : State → Prop} (hstep : ∀ s t, P s → step s = .next t → P t) (k : Nat)
    {s : State} (hs : P s) : ∃ t, Host.Core.run Sys2Proof.core k s = .next t ∧ P t := by
  induction k generalizing s with
  | zero => exact ⟨s, rfl, hs⟩
  | succ k ih =>
    obtain ⟨u, hu⟩ := exists_step_eq_next s
    obtain ⟨t, hrun, ht⟩ := ih (hstep s u hs hu)
    exact ⟨t, (run_succ k hu).trans hrun, ht⟩

/-- Settles O60: reset has the invariant when the events to come are quiet, and every step keeps
it. -/
theorem quietInputNeverSyncs : Obligations.QuietInputNeverSyncs := by
  refine ⟨fun s t => step_quiet, fun events hevents => ?_⟩
  have hreset : State.Quiet { State.reset with inbox := events } :=
    (State.quiet_iff _).mpr
      ⟨DecState.empty_quiet, ClockAgg.reset_quiet, HwClock.reset_quiet, hevents⟩
  obtain ⟨s, hrun, hs⟩ := run_of_step_keeps (fun _ _ => step_quiet) events.length hreset
  obtain ⟨hdec, hclk, -⟩ := s.quiet_iff.mp hs
  exact ⟨s, hrun, hclk.lastRadioSync, hclk.lastBit, hdec.fb, hdec.lastPeak⟩

end Sys2Proof.Machine

namespace Sys2Proof.Machine

/-! ### The bands of the classifier (R122) -/

theorem classify_of_gt {c : Nat} (h : 10 < c) :
    classify c = .error { kind := .badBit, info := badBitInfo c } := by
  have hlow : ¬ c ≤ 6 := by omega
  have hend : ¬ c ≤ 2 := by omega
  rw [classify, if_neg hend, if_neg hlow, if_neg (Nat.not_le.mpr h)]

theorem badBitInfo_toNat {c : Nat} (h : c < 65536) : (badBitInfo c).toNat = c := by
  rw [badBitInfo, if_pos h, BitVec.toNat_ofNat, Nat.mod_eq_of_lt h]

/-- Settles O16: up to 10 the count has its band, above it has none. -/
theorem classifyFollowsTheBands : Obligations.ClassifyFollowsTheBands := by
  refine fun c => ⟨?minuteEnd, ?low, ?high, ?bad⟩
  case minuteEnd =>
    intro hc
    rw [classify_of_le (by omega), if_pos hc]
  case low =>
    intro hlo hhi
    rw [classify_of_le (by omega), if_neg (by omega), if_pos hhi]
  case high =>
    intro hlo hhi
    rw [classify_of_le hhi, if_neg (by omega), if_neg (by omega)]
  case bad => exact fun hc => ⟨_, classify_of_gt hc, rfl, rfl, badBitInfo_toNat⟩

/-! ### The spacing check and its information word (R91, R120, R230) -/

/-- A difference of Timer values is a Timer value, so an information word holds it. -/
theorem timerSub_inRange {a b : Timer} (ha : a.toNat ≤ 65520) (hb : b.toNat ≤ 65520) :
    0 ≤ timerSub a b ∧ timerSub a b ≤ 65520 := by
  by_cases hle : b.toNat ≤ a.toNat
  · rw [timerSub_of_le hle]
    omega
  · rw [timerSub_of_lt (Nat.lt_of_not_le hle)]
    omega

theorem deltaInfo_toNat {d : Int} (h : 0 ≤ d ∧ d ≤ 65520) : ((deltaInfo d).toNat : Int) = d := by
  rw [deltaInfo, if_neg (by omega), BitVec.toNat_ofNat]
  omega

theorem spacingError_of_lt {p stamp : Timer} (h : timerSub stamp p < 900) :
    spacingError (some p) stamp =
      some { kind := .lastPeakTooClose, info := deltaInfo (timerSub stamp p) } :=
  if_pos h

theorem spacingError_of_gt {p stamp : Timer} (h : 1100 < timerSub stamp p) :
    spacingError (some p) stamp =
      some { kind := .lastPeakTooFar, info := deltaInfo (timerSub stamp p) } :=
  (if_neg (by show ¬ timerSub stamp p < 900; omega)).trans (if_pos h)

/-- Without a previous peak every spacing is accepted, with one those of `[900, 1100]` (R120). -/
theorem spacingError_eq_none {lastPeak : Option Timer} {stamp : Timer}
    (h : ∀ p, lastPeak = some p → 900 ≤ timerSub stamp p ∧ timerSub stamp p ≤ 1100) :
    spacingError lastPeak stamp = none := by
  cases lastPeak with
  | none => rfl
  | some p =>
    obtain ⟨hmin, hmax⟩ := h p rfl
    exact (if_neg (Int.not_lt.mpr hmin)).trans (if_neg (Int.not_lt.mpr hmax))

/-! ### BIT.CLASSIFY (R120 to R123) -/

theorem exec_bitClassify_of_spacingError {s : State} {stamp : Timer} {e : DecErr}
    (h : spacingError s.dec.lastPeak stamp = some e) :
    exec (.bitClassify stamp) s = .next (s.raise e) := by
  simp only [exec, execBitClassify, DecState.bitClassify_eq, h]

/-- A spacing error of Timer values carries the difference itself. -/
theorem exec_bitClassify_raises {s : State} {p stamp : Timer} {kind : ErrKind}
    (hp : s.dec.lastPeak = some p) (hstamp : stamp.toNat ≤ 65520) (hpeak : p.toNat ≤ 65520)
    (h : spacingError (some p) stamp =
      some { kind := kind, info := deltaInfo (timerSub stamp p) }) :
    ∃ e : DecErr, e.kind = kind ∧ e.kind.code.toNat = kind.code.toNat ∧
      (e.info.toNat : Int) = timerSub stamp p ∧
      exec (.bitClassify stamp) s = .next (s.raise e) :=
  ⟨_, rfl, rfl, deltaInfo_toNat (timerSub_inRange hstamp hpeak),
    exec_bitClassify_of_spacingError (hp ▸ h)⟩

theorem exec_bitClassify_of_spaced {s : State} {stamp : Timer}
    (h : spacingError s.dec.lastPeak stamp = none) :
    exec (.bitClassify stamp) s = .next { s with
      dec := { s.dec with lastPeak := some stamp }
      stage := .symbol (if activeCount s.dec.w ≤ 2 then .minuteEnd
        else if activeCount s.dec.w ≤ 6 then .low else .high) } := by
  simp only [exec, execBitClassify, DecState.bitClassify_eq, h, State.setDec, State.handOn]

theorem activeCount_eq_length_filter (w : Window) :
    activeCount w = ((List.range 10).filter fun k => w.getLsbD (k + 1)).length := by
  simp only [activeCount, List.countP_eq_length_filter, Nat.add_comm Config.core1.bwOff]

/-- Settles O17: the spacing decides between the two errors and the count. -/
theorem bitClassifyChecksSpacingThenCounts : Obligations.BitClassifyChecksSpacingThenCounts := by
  refine fun stamp s => ⟨?tooClose, ?tooFar, ?spaced⟩
  case tooClose =>
    exact fun p hp hstamp hpeak hclose =>
      exec_bitClassify_raises hp hstamp hpeak (spacingError_of_lt hclose)
  case tooFar =>
    exact fun p hp hstamp hpeak hfar =>
      exec_bitClassify_raises hp hstamp hpeak (spacingError_of_gt hfar)
  case spaced =>
    exact fun hspaced => ⟨activeCount s.dec.w, activeCount_eq_length_filter s.dec.w,
      exec_bitClassify_of_spaced (spacingError_eq_none hspaced)⟩

/-! ### What a step can do to `lasterr` (R23, R124, R176) -/

/-- No stage of a poll answers the code 4: the spacing errors lie below it, the protocol decoder's
above. -/
theorem DecState.poll_error_ne_badBit {d : DecState} {smp : Option Sample} {e : DecErr}
    (h : (d.poll smp).1.outcome = .error e) : e.kind ≠ .badBit := by
  intro hkind
  have hcode : e.kind.code.toNat = 4 := congrArg (fun k => k.code.toNat) hkind
  rcases DecState.poll_error h with ⟨hmissed, -⟩ | ⟨-, hspacing, -⟩ | ⟨hproto, -⟩ <;> omega

/-- UPDATE leaves `lasterr` or records the error of its own poll. -/
theorem State.update_lasterr_cases (s : State) :
    s.update.clk.lasterr = s.clk.lasterr ∨
    ∃ e, (s.dec.poll s.hw.pub).1.outcome = .error e ∧ s.update.clk.lasterr = some e := by
  have hlasterr : s.update.clk.lasterr = (s.decPoll s.hw.pub).2.clk.lasterr := by
    rw [State.update_eq]
    rfl
  rw [hlasterr, State.decPoll_lasterr]
  cases (s.dec.poll s.hw.pub).1.outcome with
  | nothing => exact .inl rfl
  | synced dt => exact .inl rfl
  | error e => exact .inr ⟨e, rfl, rfl⟩

theorem command_lasterr_cases {i : Instr} {w : Word} {s t : State} (hd : decode w = .ok i)
    (h : exec i s = .next t) :
    t.clk.lasterr = s.clk.lasterr ∨
    ∃ e, (s.dec.poll s.hw.pub).1.outcome = .error e ∧ t.clk.lasterr = some e := by
  rcases command_cases hd h with rfl | ⟨data, rfl⟩ | ⟨-, rfl⟩ | ⟨-, rfl⟩ | ⟨-, rfl⟩ |
    ⟨-, -, rfl⟩ | ⟨-, -, rfl⟩
  · exact .inl rfl
  · exact .inl rfl
  · exact s.update_lasterr_cases
  all_goals exact .inl rfl

/-- A step leaves `lasterr`, clears it (reset), or records the error of an UPDATE's poll. -/
theorem step_lasterr_cases {s t : State} (h : step s = .next t) :
    t.clk.lasterr = s.clk.lasterr ∨ t.clk.lasterr = none ∨
    ∃ e, (s.dec.poll s.hw.pub).1.outcome = .error e ∧ t.clk.lasterr = some e := by
  rcases step_cases h with ⟨-, rfl⟩ | ⟨w, rest, i, -, hd, hexec⟩ | ⟨w, rest, -, rfl⟩ |
    ⟨pin, rest, -, rfl⟩ | ⟨rest, -, rfl⟩ | ⟨rest, -, rfl⟩ | ⟨a, rest, -, rfl⟩ | ⟨p, rest, -, rfl⟩
  · exact .inl rfl
  · exact (command_lasterr_cases hd hexec).imp_right .inr
  · exact .inl rfl
  · exact .inl rfl
  · exact .inr (.inl rfl)
  all_goals exact .inl rfl

/-- Settles O18: what a step newly records in `lasterr` is the error of a poll, and no poll ends in
BadBit. -/
theorem badBitIsNeverRaised : Obligations.BadBitIsNeverRaised := by
  intro s t e hstep hlast hbad
  rcases step_lasterr_cases hstep with hkept | hcleared | ⟨e', herr, hrecorded⟩
  · exact hkept ▸ hlast
  · cases hcleared.symm.trans hlast
  · cases hrecorded.symm.trans hlast
    exact absurd hbad (DecState.poll_error_ne_badBit herr)

end Sys2Proof.Machine

namespace Sys2Proof.Machine

/-! ### FRAME.PUSH (R130, R131) -/

theorem exec_framePush (sym : Symbol) (s : State) :
    exec (.framePush sym) s = .next (s.setDec (s.dec.framePush sym)) := rfl

theorem reanchor_eq_nil_iff (fb : List Symbol) :
    reanchor fb = [] ↔ Symbol.minuteEnd ∉ fb := by
  rw [reanchor, List.dropWhile_eq_nil_iff]
  constructor
  · intro hall hmem
    simpa using hall _ hmem
  · intro hmem x hx
    exact decide_eq_true fun heq => hmem (heq ▸ hx)

theorem reanchor_head_of_mem {fb : List Symbol} (h : Symbol.minuteEnd ∈ fb) :
    (reanchor fb).head? = some .minuteEnd :=
  (reanchor_anchored fb).resolve_left fun hnil => (reanchor_eq_nil_iff fb).mp hnil h

theorem DecState.framePush_fb_of_le {d : DecState} (sym : Symbol) (h : d.fb.length ≤ 59) :
    (d.framePush sym).fb = reanchor (d.fb ++ [sym]) := by
  rw [DecState.framePush_fb, appendSymbol_of_lt sym (Nat.lt_succ_of_le h)]

/-- Settles O19: a buffer below 60 is appended to, and re-anchoring splits the result at its first
MinuteEnd. -/
theorem framePushReanchors : Obligations.FramePushReanchors := by
  refine fun sym s => ⟨_, exec_framePush sym s, rfl, ?anchored, ?cleared⟩
  case anchored =>
    intro hlen hmem
    obtain ⟨dropped, hsplit, hdropped⟩ := reanchor_split (s.dec.fb ++ [sym])
    rw [State.setDec_dec, DecState.framePush_fb_of_le sym hlen]
    exact ⟨dropped, hsplit, hdropped, reanchor_head_of_mem hmem⟩
  case cleared =>
    intro hlen hmem
    rw [State.setDec_dec, DecState.framePush_fb_of_le sym hlen]
    exact (reanchor_eq_nil_iff _).mpr hmem

/-! ### FRAME.EXTRACT (R132, R133, R135) -/

theorem exec_frameExtract (s : State) :
    exec .frameExtract s = .next { s with
      dec := { s.dec with fb := (extractFrame s.dec.fb).2.2 }
      stage := .frame (extractFrame s.dec.fb).1 (extractFrame s.dec.fb).2.1 } := rfl

theorem testBit_foldr_bits (bits : List Bool) (i : Nat) :
    (bits.foldr (fun (b : Bool) n => b.toNat + 2 * n) 0).testBit i = bits[i]?.getD false := by
  induction bits generalizing i with
  | nil => simp
  | cons b rest ih =>
    rw [List.foldr_cons, Nat.add_comm, ← Nat.bit_val]
    cases i with
    | zero => simp
    | succ i => rw [Nat.testBit_bit_succ, ih, List.getElem?_cons_succ]

/-- Bit `i` of the frame is the `i`-th boolean (R43, R62). -/
theorem frameOfBits_getLsbD (bits : List Bool) {i : Nat} (h : i < 59) :
    (frameOfBits bits).getLsbD i = bits[i]?.getD false := by
  rw [frameOfBits, BitVec.getLsbD_ofNat, testBit_foldr_bits, decide_eq_true h, Bool.true_and]

theorem frameOfBits_high_iff (syms : List Symbol) {i : Nat} (h : i < 59) :
    (frameOfBits (syms.map fun x => decide (x = .high))).getLsbD i = true ↔
      syms[i]? = some .high := by
  rw [frameOfBits_getLsbD _ h, List.getElem?_map]
  cases syms[i]? <;> simp

theorem extractFrame_complete {syms : List Symbol} (hlen : syms.length = 59)
    (hmem : Symbol.minuteEnd ∉ syms) :
    extractFrame (.minuteEnd :: syms) =
      (some (frameOfBits (syms.map fun x => decide (x = .high))), false, []) := by
  have hpops := popBits_complete syms [] hmem
  rw [hlen, List.append_nil] at hpops
  simp [extractFrame, hlen, hpops]

theorem extractFrame_abort {before after : List Symbol}
    (hlen : (Symbol.minuteEnd :: (before ++ .minuteEnd :: after)).length = 60)
    (hmem : Symbol.minuteEnd ∉ before) :
    extractFrame (.minuteEnd :: (before ++ .minuteEnd :: after)) = (none, true, after) := by
  have hbefore : before.length < 59 := by
    simp only [List.length_cons, List.length_append] at hlen
    omega
  have hpops := popBits_abort before after 59 hbefore hmem
  rw [extractFrame, if_pos ⟨hlen, rfl⟩]
  simp [hpops]

theorem extractFrame_wait {fb : List Symbol} (h : fb.length ≠ 60 ∨ fb.head? ≠ some .minuteEnd) :
    extractFrame fb = (none, false, fb) :=
  if_neg (not_and_or.mpr h)

/-- Settles O20: what the pops of the 59 symbols after the marker give, and the guard of the
extraction. -/
theorem frameExtractTakesAbortsOrWaits : Obligations.FrameExtractTakesAbortsOrWaits := by
  refine fun s => ⟨?takes, ?aborts, ?waits⟩
  case takes =>
    intro bits hfb hlen hmem
    refine ⟨_, fun i hi => frameOfBits_high_iff bits hi, ?_⟩
    rw [exec_frameExtract, hfb, extractFrame_complete hlen hmem]
  case aborts =>
    intro before after hfb hlen hmem
    rw [exec_frameExtract, hfb, extractFrame_abort (hfb ▸ hlen) hmem]
  case waits =>
    intro hwait
    rw [exec_frameExtract, extractFrame_wait hwait]

/-! ### The frame buffer over a poll and over an UPDATE (R134, R174 to R176, R32 (d)) -/

/-- The frame buffer and the record after an accepted sample: without a symbol the buffer is unchanged,
with one it is what FRAME.EXTRACT leaves of the re-anchored buffer (R174, steps 11 to 13). -/
theorem DecState.accept_fb_cases (d : DecState) (p : Sample) :
    ((d.accept p).1.symbol = none ∧ (d.accept p).2.fb = d.fb) ∨
    ∃ sym fr, (d.accept p).1.symbol = some sym ∧
      extractFrame (reanchor (appendSymbol d.fb sym)) =
        (fr, (d.accept p).1.aborted, (d.accept p).2.fb) := by
  obtain ⟨-, -, -, -, -, hdetected⟩ := d.detected_frame p
  obtain ⟨-, -, -, -, -, -, -, hpushed⟩ := d.pushed_frame p (d.fedSymbol p)
  rcases d.accept_cases p with ⟨-, hacc⟩ | ⟨-, ⟨-, hacc⟩ | ⟨-, ⟨e, -, hacc⟩ |
    ⟨-, ⟨ab, rest, hex, hacc⟩ | ⟨f, ab, rest, hex, ⟨e, -, hacc⟩ | ⟨dt, -, hacc⟩⟩⟩⟩⟩ <;> rw [hacc]
  · exact .inl ⟨rfl, rfl⟩
  · exact .inl ⟨rfl, hdetected⟩
  · exact .inl ⟨rfl, hdetected⟩
  all_goals exact .inr ⟨_, _, rfl, hpushed ▸ hex⟩

theorem DecState.poll_fb_cases (d : DecState) (smp : Option Sample) :
    ((d.poll smp).1.symbol = none ∧ (d.poll smp).2.fb = d.fb) ∨
    ∃ sym fr, (d.poll smp).1.symbol = some sym ∧
      extractFrame (reanchor (appendSymbol d.fb sym)) =
        (fr, (d.poll smp).1.aborted, (d.poll smp).2.fb) := by
  rcases d.poll_cases smp with hp | ⟨p, l, -, -, -, -, hp⟩ | ⟨p, -, -, hp⟩ <;> rw [hp]
  · exact .inl ⟨rfl, rfl⟩
  · exact .inl ⟨rfl, rfl⟩
  · exact d.accept_fb_cases p

theorem extractFrame_anchored {fb : List Symbol} (hanchor : fb = [] ∨ fb.head? = some .minuteEnd)
    (hab : (extractFrame fb).2.1 = false) :
    (extractFrame fb).2.2 = [] ∨ (extractFrame fb).2.2.head? = some .minuteEnd := by
  rcases extractFrame_cases fb with ⟨hwait, -⟩ | ⟨_, -, -, -, htake⟩ | ⟨_, _, -, -, -, habort⟩
  · rwa [hwait]
  · exact .inl (by rw [htake])
  · rw [habort] at hab
    cases hab

theorem DecState.poll_fb_length_le {d : DecState} (smp : Option Sample) (h : d.fb.length ≤ 59) :
    (d.poll smp).2.fb.length ≤ 59 := by
  rcases d.poll_fb_cases smp with ⟨-, hkept⟩ | ⟨sym, fr, -, hex⟩
  · rwa [hkept]
  · have hlen := extractFrame_length_le
      ((reanchor_length_le (appendSymbol d.fb sym)).trans (appendSymbol_length_le _ _))
      (reanchor_anchored _)
    rwa [hex] at hlen

theorem DecState.poll_fb_of_no_symbol {d : DecState} {smp : Option Sample}
    (h : (d.poll smp).1.symbol.isSome = false) : (d.poll smp).2.fb = d.fb := by
  rcases d.poll_fb_cases smp with ⟨-, hkept⟩ | ⟨sym, fr, hsym, -⟩
  · exact hkept
  · rw [hsym] at h
    cases h

theorem DecState.poll_fb_anchored {d : DecState} {smp : Option Sample}
    (hsym : (d.poll smp).1.symbol.isSome = true) (hab : (d.poll smp).1.aborted = false) :
    (d.poll smp).2.fb = [] ∨ (d.poll smp).2.fb.head? = some .minuteEnd := by
  rcases d.poll_fb_cases smp with ⟨hnone, -⟩ | ⟨sym, fr, -, hex⟩
  · rw [hnone] at hsym
    cases hsym
  · have hanchored := extractFrame_anchored (reanchor_anchored (appendSymbol d.fb sym))
    rw [hex] at hanchored
    exact hanchored hab

/-- After an UPDATE the frame buffer is the one its poll left, or empty by the resync (R176). -/
theorem State.update_fb_cases (s : State) :
    s.update.dec.fb = (s.dec.poll s.hw.pub).2.fb ∨ s.update.dec.fb = [] := by
  have hdec : s.update.dec = (s.decPoll s.hw.pub).2.dec := by rw [State.update_eq]
  rw [hdec, State.decPoll_dec]
  split
  · exact .inr rfl
  · exact .inl rfl

theorem State.update_symBit (s : State) :
    s.update.out.rspData.getLsbD 3 = (s.dec.poll s.hw.pub).1.symbol.isSome := by
  obtain ⟨-, -, -, hsym, -⟩ := statusWord_bits s.flags
  rw [State.update_rspData, hsym]
  rfl

theorem State.update_fabortBit (s : State) :
    s.update.out.rspData.getLsbD 11 = (s.dec.poll s.hw.pub).1.aborted := by
  obtain ⟨-, -, -, -, -, -, -, -, -, -, -, habort⟩ := statusWord_bits s.flags
  rw [State.update_rspData, habort]
  rfl

/-- Settles O21: a resync empties the buffer; without one the buffer is the poll's, which is unchanged
or what FRAME.EXTRACT leaves of an anchored buffer. -/
theorem updateKeepsTheBufferAnchored : Obligations.UpdateKeepsTheBufferAnchored := by
  intro s hlen
  refine ⟨s.update, rfl, ?_⟩
  rw [State.update_symBit, State.update_fabortBit]
  rcases s.update_fb_cases with hfb | hfb <;> rw [hfb]
  · exact ⟨DecState.poll_fb_length_le _ hlen,
      fun hsym => .inl (DecState.poll_fb_of_no_symbol hsym),
      DecState.poll_fb_anchored⟩
  · exact ⟨Nat.zero_le _, fun _ => .inr rfl, fun _ _ => .inl rfl⟩

end Sys2Proof.Machine

namespace Sys2Proof.Machine

/-! ### PROTO.DECODE runs the decoder (R140, R153) -/

theorem exec_protoDecode (fr : Frame) (s : State) :
    exec (.protoDecode fr) s = execProtoDecode fr s := rfl

theorem exec_protoDecode_of_error {fr : Frame} {e : DecErr} (s : State)
    (h : protoDecode fr = .error e) : exec (.protoDecode fr) s = .next (s.raise e) := by
  rw [exec_protoDecode, execProtoDecode, h]

theorem exec_protoDecode_of_ok {fr : Frame} {dt : Datetime} (s : State)
    (h : protoDecode fr = .ok dt) :
    exec (.protoDecode fr) s = .next { s with stage := .decoded dt } := by
  rw [exec_protoDecode, execProtoDecode, h]
  rfl

theorem protoDecode_of_structureError {fr : Frame} {e : DecErr} (h : structureError fr = some e) :
    protoDecode fr = .error e := by
  simp only [protoDecode, h]

/-- The range checks on the six fields of a frame (R147 to R152). -/
def frameRangeError (fr : Frame) : Option DecErr :=
  rangeError (fieldValue fr 21 27) (fieldValue fr 29 34) (fieldValue fr 36 41)
    (fieldValue fr 42 44) (fieldValue fr 45 49) (fieldValue fr 50 57)

/-- The Datetime of the six fields of a frame (R153). -/
def frameDatetime (fr : Frame) : Datetime :=
  decodedDatetime (fieldValue fr 21 27) (fieldValue fr 29 34) (fieldValue fr 36 41)
    (fieldValue fr 42 44) (fieldValue fr 45 49) (fieldValue fr 50 57)

theorem protoDecode_of_rangeError {fr : Frame} {e : DecErr} (hs : structureError fr = none)
    (hr : frameRangeError fr = some e) : protoDecode fr = .error e := by
  unfold frameRangeError at hr
  simp only [protoDecode, hs, hr]

theorem protoDecode_of_noError {fr : Frame} (hs : structureError fr = none)
    (hr : frameRangeError fr = none) : protoDecode fr = .ok (frameDatetime fr) := by
  unfold frameRangeError at hr
  simp only [protoDecode, hs, hr]
  rfl

theorem protoDecode_ok_structure {fr : Frame} {dt : Datetime} (h : protoDecode fr = .ok dt) :
    structureError fr = none := by
  cases hs : structureError fr with
  | none => rfl
  | some e =>
    rw [protoDecode_of_structureError hs] at h
    cases h

/-! ### The structural checks, one after another (R141 to R146) -/

/-- Checks 1 to 3 pass: both start bits and the summer-time flags are in order (R141 to R143). -/
def FlagsInOrder (fr : Frame) : Prop :=
  fr.getLsbD 20 = true ∧ fr.getLsbD 0 = false ∧ fr.getLsbD 17 ≠ fr.getLsbD 18

theorem structureError_startOfTime {fr : Frame} (h20 : fr.getLsbD 20 = false) :
    structureError fr = some (protoErr .badStartOfTime 0) :=
  if_pos h20

theorem structureError_startOfMinute {fr : Frame} (h20 : fr.getLsbD 20 = true)
    (h0 : fr.getLsbD 0 = true) : structureError fr = some (protoErr .badStartOfMinute 0) := by
  rw [structureError, if_neg (ne_false_of_eq_true h20), if_pos h0]

theorem structureError_summerTime {fr : Frame} {b : Bool} (h20 : fr.getLsbD 20 = true)
    (h0 : fr.getLsbD 0 = false) (h17 : fr.getLsbD 17 = b) (h18 : fr.getLsbD 18 = b) :
    structureError fr = some (protoErr .summerTime (3 * b.toNat)) := by
  rw [structureError, if_neg (ne_false_of_eq_true h20), if_neg (ne_true_of_eq_false h0),
    if_pos (h17.trans h18.symm), h17, h18, ← Nat.succ_mul]

/-- With the flags in order the three parities decide (R144 to R146). -/
theorem structureError_of_flags {fr : Frame} (h : FlagsInOrder fr) :
    structureError fr =
      if oddParity fr 21 28 = true then some (protoErr .minuteParity 0)
      else if oddParity fr 29 35 = true then some (protoErr .hourParity 0)
      else if oddParity fr 36 58 = true then some (protoErr .dateParity 0)
      else none := by
  obtain ⟨h20, h0, hflags⟩ := h
  rw [structureError, if_neg (ne_false_of_eq_true h20), if_neg (ne_true_of_eq_false h0),
    if_neg hflags]

theorem structureError_minuteParity {fr : Frame} (h : FlagsInOrder fr)
    (hminute : oddParity fr 21 28 = true) :
    structureError fr = some (protoErr .minuteParity 0) := by
  rw [structureError_of_flags h, if_pos hminute]

theorem structureError_hourParity {fr : Frame} (h : FlagsInOrder fr)
    (hminute : oddParity fr 21 28 = false) (hhour : oddParity fr 29 35 = true) :
    structureError fr = some (protoErr .hourParity 0) := by
  rw [structureError_of_flags h, hminute, if_neg Bool.false_ne_true, if_pos hhour]

theorem structureError_dateParity {fr : Frame} (h : FlagsInOrder fr)
    (hminute : oddParity fr 21 28 = false) (hhour : oddParity fr 29 35 = false)
    (hdate : oddParity fr 36 58 = true) : structureError fr = some (protoErr .dateParity 0) := by
  rw [structureError_of_flags h, hminute, hhour, if_neg Bool.false_ne_true,
    if_neg Bool.false_ne_true, if_pos hdate]

theorem structureError_eq_none_iff (fr : Frame) :
    structureError fr = none ↔ FlagsInOrder fr ∧ oddParity fr 21 28 = false ∧
      oddParity fr 29 35 = false ∧ oddParity fr 36 58 = false := by
  constructor
  · intro h
    unfold structureError at h
    split_ifs at h with h20 h0 hflags hminute hhour hdate
    simp only [Bool.not_eq_true, Bool.not_eq_false] at *
    exact ⟨⟨h20, h0, hflags⟩, hminute, hhour, hdate⟩
  · rintro ⟨hflags, hminute, hhour, hdate⟩
    simp [structureError_of_flags hflags, hminute, hhour, hdate]

/-- The parity of a group of frame bits is the number of ones in it (R64). -/
theorem oddParity_eq_oddOnes (fr : Frame) (a b : Nat) :
    oddParity fr a b = oddOnes (fr.extractLsb' a (b - a + 1)) := by
  unfold oddParity oddOnes
  refine List.foldl_ext _ _ _ fun p i hi => ?_
  rw [BitVec.getLsbD_extractLsb', decide_eq_true (List.mem_range.mp hi), Bool.true_and]

/-- Settles O25: the conditions select one branch of the structural checks, and the first error found
is raised. -/
theorem protoStructureChecksInOrder : Obligations.ProtoStructureChecksInOrder := by
  intro fr s
  have raises {e : DecErr} (h : structureError fr = some e) :
      exec (.protoDecode fr) s = .next (s.raise e) :=
    exec_protoDecode_of_error s (protoDecode_of_structureError h)
  have minute_eq : oddParity fr 21 28 = oddOnes (fr.extractLsb' 21 8) := oddParity_eq_oddOnes fr 21 28
  have hour_eq : oddParity fr 29 35 = oddOnes (fr.extractLsb' 29 7) := oddParity_eq_oddOnes fr 29 35
  have date_eq : oddParity fr 36 58 = oddOnes (fr.extractLsb' 36 23) := oddParity_eq_oddOnes fr 36 58
  simp only [← minute_eq, ← hour_eq, ← date_eq]
  refine ⟨?startOfTime, ?startOfMinute, ?noFlag, ?bothFlags, ?minute, ?hour, ?date⟩
  case startOfTime => exact fun h20 => ⟨rfl, raises (structureError_startOfTime h20)⟩
  case startOfMinute => exact fun h20 h0 => ⟨rfl, raises (structureError_startOfMinute h20 h0)⟩
  case noFlag =>
    exact fun ⟨h20, h0⟩ h17 h18 => ⟨rfl, raises (structureError_summerTime h20 h0 h17 h18)⟩
  case bothFlags =>
    exact fun ⟨h20, h0⟩ h17 h18 => ⟨rfl, raises (structureError_summerTime h20 h0 h17 h18)⟩
  case minute =>
    exact fun ⟨⟨h20, h0⟩, hflags⟩ hodd =>
      ⟨rfl, raises (structureError_minuteParity ⟨h20, h0, hflags⟩ hodd)⟩
  case hour =>
    exact fun ⟨⟨⟨h20, h0⟩, hflags⟩, hminute⟩ hodd =>
      ⟨rfl, raises (structureError_hourParity ⟨h20, h0, hflags⟩ hminute hodd)⟩
  case date =>
    exact fun ⟨⟨⟨⟨h20, h0⟩, hflags⟩, hminute⟩, hhour⟩ hodd =>
      ⟨rfl, raises (structureError_dateParity ⟨h20, h0, hflags⟩ hminute hhour hodd)⟩

/-! ### Which frame bits the checks and the values read (R154) -/

theorem oddParity_congr {fr fr' : Frame} {a b : Nat} (hab : a ≤ b)
    (h : ∀ i, a ≤ i → i ≤ b → fr.getLsbD i = fr'.getLsbD i) :
    oddParity fr a b = oddParity fr' a b := by
  refine List.foldl_ext _ _ _ fun p i hi => ?_
  have hi := List.mem_range.mp hi
  rw [h (a + i) (by omega) (by omega)]

theorem fieldValue_congr {fr fr' : Frame} {lo hi : Nat} (hle : lo ≤ hi)
    (h : ∀ i, lo ≤ i → i ≤ hi → fr.getLsbD i = fr'.getLsbD i) :
    fieldValue fr lo hi = fieldValue fr' lo hi := by
  refine congrArg List.sum (List.map_congr_left fun ⟨wt, i⟩ hmem => ?_)
  have hi := List.snd_lt_of_mem_zipIdx hmem
  rw [List.length_take] at hi
  simp only [h (lo + i) (by omega) (by omega)]

theorem structureError_congr {fr fr' : Frame} (h0 : fr.getLsbD 0 = fr'.getLsbD 0)
    (h17 : fr.getLsbD 17 = fr'.getLsbD 17) (h18 : fr.getLsbD 18 = fr'.getLsbD 18)
    (h : ∀ i, 20 ≤ i → i ≤ 58 → fr.getLsbD i = fr'.getLsbD i) :
    structureError fr = structureError fr' := by
  unfold structureError
  rw [h0, h17, h18, h 20 (by omega) (by omega),
    oddParity_congr (a := 21) (b := 28) (by omega) fun i _ _ => h i (by omega) (by omega),
    oddParity_congr (a := 29) (b := 35) (by omega) fun i _ _ => h i (by omega) (by omega),
    oddParity_congr (a := 36) (b := 58) (by omega) fun i _ _ => h i (by omega) (by omega)]

theorem protoDecode_congr {fr fr' : Frame} (h0 : fr.getLsbD 0 = fr'.getLsbD 0)
    (h17 : fr.getLsbD 17 = fr'.getLsbD 17) (h18 : fr.getLsbD 18 = fr'.getLsbD 18)
    (h : ∀ i, 20 ≤ i → i ≤ 58 → fr.getLsbD i = fr'.getLsbD i) :
    protoDecode fr = protoDecode fr' := by
  have field {lo hi : Nat} (hle : lo ≤ hi) (hlo : 20 ≤ lo) (hhi : hi ≤ 58) :
      fieldValue fr lo hi = fieldValue fr' lo hi :=
    fieldValue_congr hle fun i _ _ => h i (by omega) (by omega)
  unfold protoDecode
  rw [structureError_congr h0 h17 h18 h, field (lo := 21) (hi := 27), field (lo := 29) (hi := 34),
    field (lo := 36) (hi := 41), field (lo := 42) (hi := 44), field (lo := 45) (hi := 49),
    field (lo := 50) (hi := 57)] <;> omega

/-- Settles O24: the bits read are 0, 17, 18 and 20 to 58. -/
theorem unreadFrameBitsAreIgnored : Obligations.UnreadFrameBitsAreIgnored := by
  intro fr fr' s h
  have hdecode : protoDecode fr = protoDecode fr' :=
    protoDecode_congr (h 0 (by omega) (by omega) (by omega)) (h 17 (by omega) (by omega) (by omega))
      (h 18 (by omega) (by omega) (by omega)) fun i _ _ => h i (by omega) (by omega) (by omega)
  rw [exec_protoDecode, exec_protoDecode, execProtoDecode, hdecode, execProtoDecode]

/-! ### A flipped bit turns the parity of its own group only (R157) -/

theorem flipBit_getLsbD (fr : Frame) (i : Nat) {j : Nat} (hj : j < 59) :
    (flipBit fr i).getLsbD j = (fr.getLsbD j ^^ decide (j = i)) := by
  have hbit : (1#59 <<< i).getLsbD j = decide (j = i) := by
    rw [BitVec.getLsbD_shiftLeft, BitVec.getLsbD_one, decide_eq_true hj, Bool.eq_iff_iff]
    simp
    omega
  rw [flipBit, BitVec.getLsbD_xor, hbit]

theorem flipBit_getLsbD_of_ne {fr : Frame} {i j : Nat} (hj : j < 59) (hne : j ≠ i) :
    (flipBit fr i).getLsbD j = fr.getLsbD j := by
  rw [flipBit_getLsbD fr i hj, decide_eq_false hne, Bool.xor_false]

/-- Flipping the `j`-th of `n` bits turns their exclusive or. -/
theorem foldl_xor_flip (f : Nat → Bool) (j n : Nat) :
    (List.range n).foldl (fun p i => p ^^ (f i ^^ decide (i = j))) false =
      ((List.range n).foldl (fun p i => p ^^ f i) false ^^ decide (j < n)) := by
  induction n with
  | zero => rfl
  | succ n ih =>
    have hlast : decide (j < n + 1) = (decide (j < n) ^^ decide (n = j)) := by
      by_cases h : n = j
      · simp [h]
      · rw [decide_eq_false h, Bool.xor_false, decide_eq_decide]
        omega
    simp only [List.range_succ, List.foldl_append, List.foldl_cons, List.foldl_nil, ih, hlast,
      Bool.xor_assoc, Bool.xor_left_comm]

theorem oddParity_flipBit_inside {fr : Frame} {a b i : Nat} (hb : b < 59) (ha : a ≤ i) (hi : i ≤ b) :
    oddParity (flipBit fr i) a b = !oddParity fr a b := by
  have hbits : oddParity (flipBit fr i) a b = (List.range (b - a + 1)).foldl
      (fun p k => p ^^ (fr.getLsbD (a + k) ^^ decide (k = i - a))) false := by
    refine List.foldl_ext _ _ _ fun p k hk => ?_
    have hk := List.mem_range.mp hk
    rw [flipBit_getLsbD fr i (by omega), decide_eq_decide.mpr (by omega : a + k = i ↔ k = i - a)]
  rw [hbits, foldl_xor_flip, decide_eq_true (by omega), Bool.xor_true]
  rfl

theorem oddParity_flipBit_outside {fr : Frame} {a b i : Nat} (hb : b < 59) (hab : a ≤ b)
    (h : i < a ∨ b < i) : oddParity (flipBit fr i) a b = oddParity fr a b :=
  oddParity_congr hab fun _ _ _ => flipBit_getLsbD_of_ne (by omega) (by omega)

theorem flagsInOrder_flipBit {fr : Frame} {i : Nat} (h : FlagsInOrder fr) (hi : 21 ≤ i) :
    FlagsInOrder (flipBit fr i) := by
  have hread {j : Nat} (hj : j ≤ 20) : (flipBit fr i).getLsbD j = fr.getLsbD j :=
    flipBit_getLsbD_of_ne (by omega) (by omega)
  unfold FlagsInOrder
  rwa [hread, hread, hread, hread] <;> omega

/-- Settles O23: the flags and the parities of the other groups stay in order, and the parity of the
flipped bit's group turns odd. -/
theorem singleFlipGivesTheGroupsParityError : Obligations.SingleFlipGivesTheGroupsParityError := by
  intro fr dt i s hdecode
  obtain ⟨hflags, hminute, hhour, hdate⟩ :=
    (structureError_eq_none_iff fr).mp (protoDecode_ok_structure hdecode)
  have raises {e : DecErr} (h : structureError (flipBit fr i) = some e) :
      exec (.protoDecode (flipBit fr i)) s = .next (s.raise e) :=
    exec_protoDecode_of_error s (protoDecode_of_structureError h)
  refine ⟨fun hlo hhi => raises ?minute, fun hlo hhi => raises ?hour, fun hlo hhi => raises ?date⟩
  case minute =>
    refine structureError_minuteParity (flagsInOrder_flipBit hflags hlo) ?_
    rw [oddParity_flipBit_inside (by omega) hlo hhi, hminute, Bool.not_false]
  case hour =>
    refine structureError_hourParity (flagsInOrder_flipBit hflags (by omega)) ?_ ?_
    · rw [oddParity_flipBit_outside (by omega) (by omega) (by omega), hminute]
    · rw [oddParity_flipBit_inside (by omega) hlo hhi, hhour, Bool.not_false]
  case date =>
    refine structureError_dateParity (flagsInOrder_flipBit hflags (by omega)) ?_ ?_ ?_
    · rw [oddParity_flipBit_outside (by omega) (by omega) (by omega), hminute]
    · rw [oddParity_flipBit_outside (by omega) (by omega) (by omega), hhour]
    · rw [oddParity_flipBit_inside (by omega) hlo hhi, hdate, Bool.not_false]

/-! ### The weighted sum of a field (R63) -/

theorem bitNat_eq_toNat (fr : Frame) (i : Nat) : bitNat fr i = (fr.getLsbD i).toNat := by
  unfold bitNat
  cases fr.getLsbD i <;> rfl

/-- All eight weights together are 165, so no field value comes near 16 bits. -/
theorem fieldValue_le (fr : Frame) (lo hi : Nat) : fieldValue fr lo hi ≤ 165 := by
  calc fieldValue fr lo hi
      ≤ ((weights.take (hi - lo + 1)).zipIdx.map Prod.fst).sum :=
        List.sum_le_sum fun _ _ => mul_le_of_le_one_right (Nat.zero_le _) (Bool.toNat_le _)
    _ = (weights.take (hi - lo + 1)).sum := by rw [List.zipIdx_map_fst]
    _ ≤ weights.sum := (List.take_sublist _ _).sum_le_sum fun _ _ => Nat.zero_le _
    _ = 165 := rfl

/-- The six fields of a frame, bit by bit. -/
theorem fieldValue_eq_weightedBits (fr : Frame) :
    fieldValue fr 21 27 = bitNat fr 21 + 2 * bitNat fr 22 + 4 * bitNat fr 23 + 8 * bitNat fr 24
      + 10 * bitNat fr 25 + 20 * bitNat fr 26 + 40 * bitNat fr 27 ∧
    fieldValue fr 29 34 = bitNat fr 29 + 2 * bitNat fr 30 + 4 * bitNat fr 31 + 8 * bitNat fr 32
      + 10 * bitNat fr 33 + 20 * bitNat fr 34 ∧
    fieldValue fr 36 41 = bitNat fr 36 + 2 * bitNat fr 37 + 4 * bitNat fr 38 + 8 * bitNat fr 39
      + 10 * bitNat fr 40 + 20 * bitNat fr 41 ∧
    fieldValue fr 42 44 = bitNat fr 42 + 2 * bitNat fr 43 + 4 * bitNat fr 44 ∧
    fieldValue fr 45 49 = bitNat fr 45 + 2 * bitNat fr 46 + 4 * bitNat fr 47 + 8 * bitNat fr 48
      + 10 * bitNat fr 49 ∧
    fieldValue fr 50 57 = bitNat fr 50 + 2 * bitNat fr 51 + 4 * bitNat fr 52 + 8 * bitNat fr 53
      + 10 * bitNat fr 54 + 20 * bitNat fr 55 + 40 * bitNat fr 56 + 80 * bitNat fr 57 := by
  refine ⟨?_, ?_, ?_, ?_, ?_, ?_⟩ <;> simp [fieldValue, weights, bitNat_eq_toNat] <;> omega

/-! ### The range checks, one after another (R147 to R152) -/

theorem rangeError_of_inRange {minute hour day weekday month year : Nat} (hminute : minute ≤ 59)
    (hhour : hour ≤ 23) (hday : 1 ≤ day ∧ day ≤ 31) (hweekday : 1 ≤ weekday)
    (hmonth : 1 ≤ month ∧ month ≤ 12) (hyear : year ≤ 99) :
    rangeError minute hour day weekday month year = none := by
  rw [rangeError, if_neg (by omega), if_neg (by omega), if_neg (by omega), if_neg (by omega),
    if_neg (by omega), if_neg (by omega)]

/-- With the structure in order a range error is raised with its value as information. -/
theorem exec_protoDecode_raises_range {fr : Frame} {kind : ErrKind} {value : Nat} (s : State)
    (hs : structureError fr = none) (hr : frameRangeError fr = some (protoErr kind value))
    (hvalue : value ≤ 165) :
    ∃ info : BitVec 16, info.toNat = value ∧
      exec (.protoDecode fr) s = .next (s.raise { kind := kind, info := info }) := by
  refine ⟨BitVec.ofNat 16 value, ?_, exec_protoDecode_of_error s (protoDecode_of_rangeError hs hr)⟩
  rw [BitVec.toNat_ofNat, Nat.mod_eq_of_lt (by omega)]

/-- Settles O26: the conditions select one branch of the range checks; when none is taken every value
fits the register it is put in. -/
theorem protoRangeChecksThenDatetime : Obligations.ProtoRangeChecksThenDatetime := by
  intro fr s h20 h0 hflags hminutePar hhourPar hdatePar minute hour day weekday month year
  have hs : structureError fr = none := (structureError_eq_none_iff fr).mpr
    ⟨⟨h20, h0, hflags⟩, (oddParity_eq_oddOnes fr 21 28).trans hminutePar,
      (oddParity_eq_oddOnes fr 29 35).trans hhourPar, (oddParity_eq_oddOnes fr 36 58).trans hdatePar⟩
  obtain ⟨minute_eq, hour_eq, day_eq, weekday_eq, month_eq, year_eq⟩ := fieldValue_eq_weightedBits fr
  rw [← minute_eq, ← hour_eq, ← day_eq, ← weekday_eq, ← month_eq, ← year_eq]
  rintro rfl rfl rfl rfl rfl rfl
  have raises {kind : ErrKind} {lo hi : Nat}
      (hr : frameRangeError fr = some (protoErr kind (fieldValue fr lo hi))) :=
    exec_protoDecode_raises_range s hs hr (fieldValue_le fr lo hi)
  unfold frameRangeError rangeError at raises
  refine ⟨fun hminute => ⟨rfl, raises ?minute⟩, fun hminute hhour => ⟨rfl, raises ?hour⟩,
    fun htime hday => ⟨rfl, raises ?day⟩, fun hday hweekday => ⟨rfl, raises ?weekday⟩,
    fun hday hweekday hmonth => ⟨rfl, raises ?month⟩, fun hmonth hyear => ⟨rfl, raises ?year⟩,
    fun hmonth hyear => ?datetime⟩
  case minute => rw [if_pos hminute]
  case hour => rw [if_neg (by omega), if_pos hhour]
  case day => rw [if_neg (by omega), if_neg (by omega), if_pos hday]
  case weekday => rw [if_neg (by omega), if_neg (by omega), if_neg (by omega), if_pos hweekday]
  case month =>
    rw [if_neg (by omega), if_neg (by omega), if_neg (by omega), if_neg (by omega), if_pos hmonth]
  case year =>
    rw [if_neg (by omega), if_neg (by omega), if_neg (by omega), if_neg (by omega),
      if_neg (by omega), if_pos hyear]
  case datetime =>
    obtain ⟨⟨⟨hminute, hhour⟩, hday⟩, hweekday, hmonth⟩ := hmonth
    have hweekday' := fieldValue_weekday_le fr
    have hr : frameRangeError fr = none :=
      rangeError_of_inRange hminute hhour hday hweekday hmonth hyear
    refine ⟨_, exec_protoDecode_of_ok s (protoDecode_of_noError hs hr), ?_⟩
    simp only [frameDatetime, decodedDatetime, BitVec.toNat_ofNat, true_and]
    omega

/-! ### The fields and the parities of an encoded frame (R156) -/

/-- A field of packed digits weighs what its digits say: bit by bit, for each of the widths 1 to 8
(R63, R156). -/
theorem fieldValue_eq_of_extract {fr : Frame} {lo hi n : Nat} (hwidth : hi - lo < 8)
    (h : (fr.extractLsb' lo (hi - lo + 1)).toNat = n) :
    fieldValue fr lo hi = n % 16 + 10 * (n / 16) := by
  have hbit (i : Nat) : (fr.getLsbD (lo + i)).toNat = fr.toNat / 2 ^ lo / 2 ^ i % 2 := by
    rw [← BitVec.testBit_toNat, Nat.toNat_testBit, Nat.pow_add, Nat.div_div_eq_div_mul]
  rw [BitVec.extractLsb'_toNat, Nat.shiftRight_eq_div_pow] at h
  subst h
  unfold fieldValue
  generalize hi - lo = k at hwidth ⊢
  simp only [hbit]
  generalize fr.toNat / 2 ^ lo = m
  interval_cases k <;> simp [weights] <;> omega

theorem extractLsb'_append_append {l m n : Nat} (x : BitVec l) (y : BitVec m) (z : BitVec n) :
    (x ++ y ++ z).extractLsb' 0 (m + n) = y ++ z := by
  rw [BitVec.append_assoc]
  exact (BitVec.extractLsb'_append_eq_right (a := x) (b := y ++ z))

/-- A parity bit above a word turns its parity when it is set (R64). -/
theorem oddOnes_append {w : Nat} (b : Bool) (x : BitVec w) :
    oddOnes (BitVec.ofBool b ++ x) = (oddOnes x ^^ b) := by
  have hrange : List.range (1 + w) = List.range w ++ [w] := by rw [Nat.add_comm, List.range_succ]
  unfold oddOnes
  rw [hrange, List.foldl_append, List.foldl_cons, List.foldl_nil]
  congr 1
  · refine List.foldl_ext _ _ _ fun p i hi => ?_
    rw [BitVec.getLsbD_append, if_pos (List.mem_range.mp hi)]
  · rw [BitVec.getLsbD_append, if_neg (Nat.lt_irrefl w), Nat.sub_self, BitVec.getLsbD_ofBool]
    rfl

theorem oddOnes_withParity {w : Nat} (x : BitVec w) :
    oddOnes (BitVec.ofBool (oddOnes x) ++ x) = false := by
  rw [oddOnes_append, Bool.xor_self]

/-- The date fields of an encoded frame, without their parity (R156). -/
def dateBits (d : Date) : BitVec 22 :=
  fieldBits 8 d.year.toNat ++ fieldBits 5 d.month.toNat ++ fieldBits 3 d.weekday.toNat
    ++ fieldBits 6 d.day.toNat

/-- The three parity groups of an encoded frame: each its fields under their parity (R156). -/
theorem encodeFrame_groups (dt : Datetime) (cest : Bool) (filler : BitVec 17) :
    (encodeFrame dt cest filler).extractLsb' 21 8 =
      BitVec.ofBool (oddOnes (fieldBits 7 dt.time.minute.toNat)) ++ fieldBits 7 dt.time.minute.toNat ∧
    (encodeFrame dt cest filler).extractLsb' 29 7 =
      BitVec.ofBool (oddOnes (fieldBits 6 dt.time.hour.toNat)) ++ fieldBits 6 dt.time.hour.toNat ∧
    (encodeFrame dt cest filler).extractLsb' 36 23 =
      BitVec.ofBool (oddOnes (dateBits dt.date)) ++ dateBits dt.date := by
  refine ⟨?minute, ?hour, ?date⟩ <;>
    simp only [encodeFrame, BitVec.extractLsb'_append_eq_of_le, Nat.reduceLeDiff, Nat.reduceSub]
  case minute => exact extractLsb'_append_append _ _ _
  case hour => exact extractLsb'_append_append _ _ _
  case date => exact BitVec.extractLsb'_eq_self

/-- The six fields of an encoded frame (R156). -/
theorem encodeFrame_fields (dt : Datetime) (cest : Bool) (filler : BitVec 17) :
    (encodeFrame dt cest filler).extractLsb' 21 7 = fieldBits 7 dt.time.minute.toNat ∧
    (encodeFrame dt cest filler).extractLsb' 29 6 = fieldBits 6 dt.time.hour.toNat ∧
    (encodeFrame dt cest filler).extractLsb' 36 6 = fieldBits 6 dt.date.day.toNat ∧
    (encodeFrame dt cest filler).extractLsb' 42 3 = fieldBits 3 dt.date.weekday.toNat ∧
    (encodeFrame dt cest filler).extractLsb' 45 5 = fieldBits 5 dt.date.month.toNat ∧
    (encodeFrame dt cest filler).extractLsb' 50 8 = fieldBits 8 dt.date.year.toNat := by
  refine ⟨?_, ?_, ?_, ?_, ?_, ?_⟩ <;>
    simp (disch := decide) only [encodeFrame, BitVec.extractLsb'_append_eq_of_le,
      BitVec.extractLsb'_append_eq_of_add_le, Nat.reduceSub, BitVec.extractLsb'_eq_self]

theorem encodeFrame_flagsInOrder (dt : Datetime) (cest : Bool) (filler : BitVec 17) :
    FlagsInOrder (encodeFrame dt cest filler) := by
  simp only [FlagsInOrder, encodeFrame, BitVec.getLsbD_append, Nat.reduceSub]
  cases cest <;> simp

theorem structureError_encodeFrame (dt : Datetime) (cest : Bool) (filler : BitVec 17) :
    structureError (encodeFrame dt cest filler) = none := by
  obtain ⟨hminute, hhour, hdate⟩ := encodeFrame_groups dt cest filler
  refine (structureError_eq_none_iff _).mpr ⟨encodeFrame_flagsInOrder dt cest filler, ?_, ?_, ?_⟩
  · rw [oddParity_eq_oddOnes, hminute, oddOnes_withParity]
  · rw [oddParity_eq_oddOnes, hhour, oddOnes_withParity]
  · rw [oddParity_eq_oddOnes, hdate, oddOnes_withParity]

/-- A field that holds the packed digits of a value which fits it has that value. -/
theorem fieldValue_of_fieldBits {fr : Frame} {lo hi v : Nat} (hwidth : hi - lo < 8)
    (h : fr.extractLsb' lo (hi - lo + 1) = fieldBits (hi - lo + 1) v)
    (hfits : v % 10 + 16 * (v / 10) < 2 ^ (hi - lo + 1)) : fieldValue fr lo hi = v := by
  have hdigits : (fr.extractLsb' lo (hi - lo + 1)).toNat = v % 10 + 16 * (v / 10) := by
    rw [h, fieldBits, BitVec.toNat_ofNat, Nat.mod_eq_of_lt hfits]
  rw [fieldValue_eq_of_extract hwidth hdigits]
  omega

/-- The fields of an encoded frame have the values of the Datetime (R63, R156). -/
theorem fieldValue_encodeFrame {dt : Datetime} (cest : Bool) (filler : BitVec 17)
    (h : dt.wf = true) :
    fieldValue (encodeFrame dt cest filler) 21 27 = dt.time.minute.toNat ∧
    fieldValue (encodeFrame dt cest filler) 29 34 = dt.time.hour.toNat ∧
    fieldValue (encodeFrame dt cest filler) 36 41 = dt.date.day.toNat ∧
    fieldValue (encodeFrame dt cest filler) 42 44 = dt.date.weekday.toNat ∧
    fieldValue (encodeFrame dt cest filler) 45 49 = dt.date.month.toNat ∧
    fieldValue (encodeFrame dt cest filler) 50 57 = dt.date.year.toNat := by
  obtain ⟨hdate, htime⟩ := (datetime_wf_iff dt).mp h
  obtain ⟨-, -, hmonth, hyear, -⟩ := (date_wf_iff _).mp hdate
  obtain ⟨hhour, hminute, -⟩ := (time_wf_iff _).mp htime
  have hday := dt.date.day.isLt
  have hweekday := dt.date.weekday.isLt
  obtain ⟨eminute, ehour, eday, eweekday, emonth, eyear⟩ := encodeFrame_fields dt cest filler
  exact ⟨fieldValue_of_fieldBits (by omega) eminute (by omega),
    fieldValue_of_fieldBits (by omega) ehour (by omega),
    fieldValue_of_fieldBits (by omega) eday (by omega),
    fieldValue_of_fieldBits (by omega) eweekday (by omega),
    fieldValue_of_fieldBits (by omega) emonth (by omega),
    fieldValue_of_fieldBits (by omega) eyear (by omega)⟩

/-- Decoding an encoded frame gives the Datetime back (R156). -/
theorem protoDecode_encodeFrame {dt : Datetime} (cest : Bool) (filler : BitVec 17)
    (h : dt.wf = true) (hsecond : dt.time.second = none) :
    protoDecode (encodeFrame dt cest filler) = .ok dt := by
  obtain ⟨hdate, htime⟩ := (datetime_wf_iff dt).mp h
  obtain ⟨hday, hmonth, hmonth', hyear, hweekday⟩ := (date_wf_iff _).mp hdate
  obtain ⟨hhour, hminute, -⟩ := (time_wf_iff _).mp htime
  have hday' : dt.date.day.toNat ≤ 31 := Nat.le_of_lt_succ dt.date.day.isLt
  obtain ⟨vminute, vhour, vday, vweekday, vmonth, vyear⟩ := fieldValue_encodeFrame cest filler h
  have hrange : frameRangeError (encodeFrame dt cest filler) = none := by
    rw [frameRangeError, vminute, vhour, vday, vweekday, vmonth, vyear]
    exact rangeError_of_inRange hminute hhour ⟨hday, hday'⟩ hweekday ⟨hmonth, hmonth'⟩ hyear
  rw [protoDecode_of_noError (structureError_encodeFrame dt cest filler) hrange, frameDatetime,
    vminute, vhour, vday, vweekday, vmonth, vyear, decodedDatetime, ← hsecond]
  simp only [BitVec.ofNat_toNat, BitVec.setWidth_eq]

/-- Settles O22: an encoded frame passes the structural checks, and its fields are the Datetime's. -/
theorem frameRoundTrip : Obligations.FrameRoundTrip :=
  fun _ cest filler s h hsecond =>
    exec_protoDecode_of_ok s (protoDecode_encodeFrame cest filler h hsecond)

end Sys2Proof.Machine

namespace Sys2Proof.Machine

/-! ### The period check of DEC.POLL, and what it keeps of an accepted sample (R171 to R173) -/

theorem DecState.poll_of_stale {d : DecState} {p : Sample} (h : d.lastSmp = some p.stamp) :
    d.poll (some p) = (Poll.none, d) := by
  simp only [DecState.poll, h, if_true]

theorem DecState.poll_of_early {d : DecState} {p : Sample} {l : Timer} (hl : d.lastSmp = some l)
    (hne : p.stamp ≠ l) (hearly : timerSub p.stamp l < 20) : d.poll (some p) = (Poll.none, d) := by
  simp [DecState.poll, hl, hne, hearly]

theorem timerSub_self (a : Timer) : timerSub a a = 0 := by
  rw [timerSub_of_le (Nat.le_refl _), Int.sub_self]

/-- A sample more than one period late is not fed: a value was missed (R172). -/
theorem DecState.poll_of_late {d : DecState} {p : Sample} {l : Timer} (hl : d.lastSmp = some l)
    (hlate : 20 < timerSub p.stamp l) :
    d.poll (some p) = ({ Poll.none with
      outcome := .error { kind := .missedPolledValue, info := deltaInfo (timerSub p.stamp l) } },
      d) := by
  have hne : p.stamp ≠ l := by
    rintro rfl
    rw [timerSub_self] at hlate
    omega
  have hnotEarly : ¬ timerSub p.stamp l < 20 := by omega
  simp [DecState.poll, hl, hne, hnotEarly, hlate]

/-- An accepted sample is counted and remembered before any stage that can raise an error (R100, R172,
R174). -/
theorem DecState.accept_remembers (d : DecState) (p : Sample) :
    (d.accept p).1.accepted = true ∧ (d.accept p).2.lastSmp = some p.stamp ∧
      (d.accept p).2.wcount.toNat = min (d.wcount.toNat + 1) 200 := by
  obtain ⟨-, hdetected, -, -, hsmp, -⟩ := d.detected_frame p
  obtain ⟨-, hpushed, -, -, -, -, hsmpPushed, -⟩ := d.pushed_frame p (d.fedSymbol p)
  have hcount : (d.detected p).wcount.toNat = min (d.wcount.toNat + 1) 200 := by
    rw [hdetected, d.histShift_wcount_toNat]
  have hcountPushed : (d.pushed p (d.fedSymbol p)).wcount.toNat = min (d.wcount.toNat + 1) 200 := by
    rw [hpushed, hcount]
  rcases d.accept_cases p with ⟨-, hacc⟩ | ⟨-, ⟨-, hacc⟩ | ⟨-, ⟨e, -, hacc⟩ |
    ⟨-, ⟨ab, rest, -, hacc⟩ | ⟨f, ab, rest, -, ⟨e, -, hacc⟩ | ⟨dt, -, hacc⟩⟩⟩⟩⟩ <;> rw [hacc]
  · exact ⟨rfl, rfl, d.histShift_wcount_toNat p.level⟩
  · exact ⟨rfl, hsmp, hcount⟩
  · exact ⟨rfl, hsmp, hcount⟩
  all_goals
    dsimp only
    exact ⟨rfl, hsmpPushed, hcountPushed⟩

/-! ### DEC.RESYNC and the no-ops of DEC.POLL (R171, R176) -/

/-- Settles O30: DEC.RESYNC is the raising of its error. -/
theorem resyncClearsTheDecoder : Obligations.ResyncClearsTheDecoder :=
  fun _ _ => rfl

theorem exec_decPoll_of_ignored {s : State} {smp : Option Sample}
    (h : s.dec.poll smp = (Poll.none, s.dec)) :
    exec (.decPoll smp) s = .next { s with stage := .poll Poll.none } := by
  rw [exec_decPoll, State.decPoll_eq, h]
  rfl

/-- Settles O27: an absent sample and one with the remembered stamp are both ignored by the poll. -/
theorem pollIgnoresAbsentAndStaleSamples : Obligations.PollIgnoresAbsentAndStaleSamples :=
  fun _ => ⟨exec_decPoll_of_ignored rfl,
    fun _ hstale => exec_decPoll_of_ignored (DecState.poll_of_stale hstale)⟩

/-! ### DEC.POLL by the gap since the last accepted sample (R172, R173) -/

theorem exec_decPoll_of_error {s : State} {smp : Option Sample} {e : DecErr}
    (h : (s.dec.poll smp).1.outcome = .error e) :
    exec (.decPoll smp) s = .next { s.resync e with stage := .poll (s.dec.poll smp).1 } := by
  rw [exec_decPoll, State.decPoll_eq, h]
  rfl

/-- Without an error the sub-state is the one the pipeline answered (R175). -/
theorem State.decPoll_dec_of_noError {s : State} {smp : Option Sample}
    (h : (s.dec.poll smp).1.outcome.isError = false) :
    (s.decPoll smp).2.dec = (s.dec.poll smp).2 := by
  rw [State.decPoll_dec, h]
  rfl

/-- Settles O28: the gap decides between the three answers of the period check, and what an accepted
sample leaves in `last_smp` and `wcount` no later stage writes. -/
theorem pollChecksThePeriod : Obligations.PollChecksThePeriod := by
  refine fun p s hstamp hlast => ⟨?early, ?late, ?due⟩
  case early =>
    exact fun l hl hne hgap => exec_decPoll_of_ignored (DecState.poll_of_early hl hne hgap)
  case late =>
    intro l hl hgap
    have hpoll := DecState.poll_of_late hl hgap
    have hinfo := deltaInfo_toNat (timerSub_inRange hstamp (hlast l hl))
    have hexec := exec_decPoll_of_error (congrArg (fun polled => polled.1.outcome) hpoll)
    rw [hpoll] at hexec
    exact ⟨_, rfl, rfl, hinfo, hexec⟩
  case due =>
    intro hdue
    have hpoll : s.dec.poll (some p) = s.dec.accept p := DecState.poll_of_due hdue
    obtain ⟨haccepted, hsmp, hcount⟩ := s.dec.accept_remembers p
    rw [← hpoll] at haccepted hsmp hcount
    refine ⟨_, _, exec_decPoll (some p) s, rfl, haccepted, fun hend => ?_⟩
    rw [State.handOn_dec, State.decPoll_dec_of_noError hend]
    exact ⟨hsmp, hcount⟩

/-! ### A second UPDATE on the same published pair (R171, R178) -/

theorem State.update_dec (s : State) : s.update.dec = (s.decPoll s.hw.pub).2.dec := by
  rw [State.update_eq]

theorem State.update_hw (s : State) : s.update.hw = s.hw := by
  rw [State.update_eq]

theorem State.update_smpAccBit (s : State) :
    s.update.out.rspData.getLsbD 0 = (s.dec.poll s.hw.pub).1.accepted := by
  obtain ⟨haccepted, -⟩ := statusWord_bits s.flags
  rw [State.update_rspData, haccepted]
  rfl

theorem State.update_derrBit (s : State) :
    s.update.out.rspData.getLsbD 6 = (s.dec.poll s.hw.pub).1.outcome.isError := by
  obtain ⟨-, -, -, -, -, -, hderr, -⟩ := statusWord_bits s.flags
  rw [State.update_rspData, hderr]
  rfl

theorem DecState.poll_accepted {d : DecState} {smp : Option Sample}
    (h : (d.poll smp).1.accepted = true) : ∃ p, smp = some p ∧ d.poll smp = d.accept p := by
  rcases d.poll_cases smp with hp | ⟨p, l, -, -, -, -, hp⟩ | ⟨p, hsmp, -, hp⟩
  · rw [hp] at h
    cases h
  · rw [hp] at h
    cases h
  · exact ⟨p, hsmp, hp⟩

/-- An UPDATE that accepted a sample without an error leaves a Decoder for which the published pair is
stale (R172). -/
theorem State.poll_after_update {s : State} (haccepted : (s.dec.poll s.hw.pub).1.accepted = true)
    (hend : (s.dec.poll s.hw.pub).1.outcome.isError = false) :
    s.update.dec.poll s.update.hw.pub = (Poll.none, s.update.dec) := by
  obtain ⟨p, hpub, hpoll⟩ := DecState.poll_accepted haccepted
  obtain ⟨-, hsmp, -⟩ := s.dec.accept_remembers p
  rw [State.update_dec, State.decPoll_dec_of_noError hend, State.update_hw, hpoll, hpub]
  exact DecState.poll_of_stale hsmp

/-- A poll that did nothing shows in no bit of the status word: TIME_OK and PHCHG are not of the
Decoder's record (R212). -/
theorem statusWord_of_nothing (wack : Bool) (datetime : Option Datetime) (before after : Phase) :
    statusWord (updateFlags Poll.none wack datetime before after) &&& 0x9FF#32 = 0#32 := by
  unfold updateFlags
  generalize datetime.isSome = timeOk
  generalize decide (after ≠ before) = phchg
  revert wack timeOk phchg
  decide

/-- An UPDATE whose poll does nothing leaves what the Decoder and its record write. -/
theorem State.update_of_nothing {s : State} (h : s.dec.poll s.hw.pub = (Poll.none, s.dec)) :
    s.update.dec = s.dec ∧ s.update.clk.lastBit = s.clk.lastBit ∧
      s.update.clk.lasterr = s.clk.lasterr ∧ s.update.clk.lastRadioSync = s.clk.lastRadioSync ∧
      s.update.out.rspData &&& 0x9FF#32 = 0#32 := by
  refine ⟨?dec, ?lastBit, ?lasterr, ?lastRadioSync, ?status⟩
  case status =>
    rw [State.update_rspData, State.flags, h]
    exact statusWord_of_nothing ..
  all_goals
    rw [State.update_eq, State.decPoll_eq, h]
    rfl

/-- Settles O33: the pair the first UPDATE consumed is stale for the second, whose poll does nothing. -/
theorem samePairIsFedOnce : Obligations.SamePairIsFedOnce := by
  rintro s _ ⟨⟩ hsmpAcc hderr
  rw [State.update_smpAccBit] at hsmpAcc
  rw [State.update_derrBit] at hderr
  exact ⟨_, rfl, State.update_of_nothing (State.poll_after_update hsmpAcc hderr)⟩

/-! ### What the stages hand on, from the record of a poll (R174, entry 9) -/

/-- What the last stage hands on when the poll ends in a Datetime or in an error. -/
def PollEnd.noted : PollEnd → List StageOut
  | .nothing => []
  | .synced dt => [.decoded dt]
  | .error e => [.raised e]

/-- What the stages hand on before the poll's end, read off its record: PHASE.STEP has run when there is
a score, BIT.CLASSIFY and FRAME.EXTRACT when there is a symbol. -/
def Poll.notedStages (r : Poll) : List StageOut :=
  .score r.score :: ((r.score.map fun _ => StageOut.peak r.peak).toList
    ++ (r.symbol.map fun sym => [StageOut.symbol sym, .frame r.frame r.aborted]).getD [])

/-- What the stages of an accepted sample hand on, in their order. -/
def Poll.noted (r : Poll) : List StageOut := r.notedStages ++ r.outcome.noted

/-- What the last stage that ran handed on. -/
def Poll.lastNoted (r : Poll) : StageOut := r.noted.getLastD .none

theorem PollEnd.mem_noted (ending : PollEnd) (o : StageOut) :
    o ∈ ending.noted ↔
      (∃ dt, ending = .synced dt ∧ o = .decoded dt) ∨ ∃ e, ending = .error e ∧ o = .raised e := by
  cases ending <;> simp [PollEnd.noted]

theorem Poll.mem_noted (r : Poll) (o : StageOut) :
    o ∈ r.noted ↔ o = .score r.score ∨ (r.score.isSome = true ∧ o = .peak r.peak) ∨
      (∃ sym, r.symbol = some sym ∧ (o = .symbol sym ∨ o = .frame r.frame r.aborted)) ∨
      o ∈ r.outcome.noted := by
  unfold Poll.noted Poll.notedStages
  cases r.score <;> cases r.symbol <;> simp [or_assoc]

theorem Poll.score_mem_noted (r : Poll) (n : Nat) :
    StageOut.score (some n) ∈ r.noted ↔ r.score = some n := by
  simp [Poll.mem_noted, PollEnd.mem_noted, eq_comm (a := r.score)]

theorem Poll.peak_mem_noted (r : Poll) :
    StageOut.peak true ∈ r.noted ↔ r.score.isSome = true ∧ r.peak = true := by
  simp [Poll.mem_noted, PollEnd.mem_noted]

theorem Poll.symbol_mem_noted (r : Poll) (sym : Symbol) :
    StageOut.symbol sym ∈ r.noted ↔ r.symbol = some sym := by
  simp [Poll.mem_noted, PollEnd.mem_noted]

theorem Poll.frame_mem_noted (r : Poll) (fr : Option Frame) (aborted : Bool) :
    StageOut.frame fr aborted ∈ r.noted ↔
      r.symbol.isSome = true ∧ fr = r.frame ∧ aborted = r.aborted := by
  simp [Poll.mem_noted, PollEnd.mem_noted, Option.isSome_iff_exists]

/-- The stages end as the poll ends: a Datetime or an error is the last thing handed on. -/
theorem Poll.outcome_iff_lastNoted (r : Poll) :
    (∀ dt, r.outcome = .synced dt ↔ r.lastNoted = .decoded dt) ∧
      ∀ e, r.outcome = .error e ↔ r.lastNoted = .raised e := by
  rw [Poll.lastNoted, Poll.noted]
  cases r.outcome with
  | nothing =>
    rw [Poll.notedStages]
    cases r.score <;> cases r.symbol <;> simp [PollEnd.noted]
  | synced dt => simp [PollEnd.noted]
  | error e => simp [PollEnd.noted]

/-! ### The stages of an accepted sample, each on the state the one before it left (R174) -/

theorem State.setDec_handOn_setDec (s : State) (d d' : DecState) (o : StageOut) :
    ((s.setDec d).handOn o).setDec d' = (s.setDec d').handOn o := rfl

theorem exec_histShift_remembered (s : State) (p : Sample) :
    exec (.histShift p.level) (s.setDec { s.dec with lastSmp := some p.stamp }) =
      .next (s.setDec (s.dec.fed p)) := rfl

theorem exec_corrScore_fed (s : State) (p : Sample) :
    exec .corrScore (s.setDec (s.dec.fed p)) = .next ((s.setDec (s.dec.fed p)).handOn
      (.score (if (s.dec.fed p).windowFull then some (corrScore (s.dec.fed p).w) else none))) := rfl

theorem exec_phaseStep_fed (s : State) (p : Sample) (o : StageOut) :
    exec (.phaseStep (BitVec.ofNat 8 (corrScore (s.dec.fed p).w)))
        ((s.setDec (s.dec.fed p)).handOn o) =
      .next ((s.setDec (s.dec.detected p)).handOn
        (.peak ((s.dec.fed p).phaseStep (s.dec.fedScore p)).2.1)) :=
  exec_phaseStep (s.dec.fedScore p) ((s.setDec (s.dec.fed p)).handOn o)

theorem exec_bitClassify_detected_of_spacingError {s : State} {p : Sample} {e : DecErr}
    (o : StageOut) (h : spacingError (s.dec.detected p).lastPeak p.stamp = some e) :
    exec (.bitClassify p.stamp) ((s.setDec (s.dec.detected p)).handOn o) = .next (s.raise e) :=
  exec_bitClassify_of_spacingError (s := (s.setDec (s.dec.detected p)).handOn o) h

theorem exec_bitClassify_detected_of_spaced {s : State} {p : Sample} (o : StageOut)
    (h : spacingError (s.dec.detected p).lastPeak p.stamp = none) :
    exec (.bitClassify p.stamp) ((s.setDec (s.dec.detected p)).handOn o) =
      .next ((s.setDec { s.dec.detected p with lastPeak := some p.stamp }).handOn
        (.symbol (s.dec.fedSymbol p))) :=
  exec_bitClassify_of_spaced (s := (s.setDec (s.dec.detected p)).handOn o) h

theorem exec_framePush_detected (s : State) (p : Sample) (sym : Symbol) (o : StageOut) :
    exec (.framePush sym)
        ((s.setDec { s.dec.detected p with lastPeak := some p.stamp }).handOn o) =
      .next ((s.setDec (s.dec.pushed p sym)).handOn o) := by
  rw [exec_framePush, State.setDec_handOn_setDec, State.handOn_dec, State.setDec_dec]
  rfl

theorem exec_frameExtract_pushed {s : State} {p : Sample} {sym : Symbol} {fr : Option Frame}
    {ab : Bool} {rest : List Symbol} (o : StageOut)
    (h : extractFrame (s.dec.pushed p sym).fb = (fr, ab, rest)) :
    exec .frameExtract ((s.setDec (s.dec.pushed p sym)).handOn o) =
      .next ((s.setDec { s.dec.pushed p sym with fb := rest }).handOn (.frame fr ab)) := by
  rw [exec_frameExtract, State.handOn_dec, State.setDec_dec, h]
  rfl

/-- The stages run one by one hand on what the record of the sample shows, and end in the state of the
poll (R174 to R176). -/
theorem stagewise_eq {s : State} {p : Sample} (h : s.dec.Due p) :
    stagewise s p = ((s.dec.accept p).1.noted,
      .next ((s.decPoll (some p)).2.handOn (s.dec.accept p).1.lastNoted)) := by
  rw [State.decPoll_eq, DecState.poll_of_due h]
  simp only [stagewise, thenRun, thenNote, exec_histShift_remembered, exec_corrScore_fed,
    State.handOn_stage]
  rcases s.dec.accept_cases p with ⟨hfilling, hacc⟩ | ⟨hfilled, hscored⟩
  · have hwindow : ¬ (s.dec.fed p).windowFull = true :=
      fun hfull => Nat.not_le.mpr hfilling ((s.dec.fed p).windowFull_iff.mp hfull)
    simp only [if_neg hwindow, hacc]
    rfl
  have hwindow : (s.dec.fed p).windowFull = true := (s.dec.fed p).windowFull_iff.mpr hfilled.ge
  simp only [hwindow, if_true, exec_phaseStep_fed, State.handOn_stage]
  rcases hscored with ⟨hpeak, hacc⟩ | ⟨hpeak, hconfirmed⟩
  · simp only [hpeak, hacc]
    rfl
  simp only [hpeak]
  rcases hconfirmed with ⟨e, hspacing, hacc⟩ | ⟨hspaced, hpushed⟩
  · simp only [exec_bitClassify_detected_of_spacingError _ hspacing, State.raise_stage, hacc]
    rfl
  simp only [exec_bitClassify_detected_of_spaced _ hspaced, exec_framePush_detected,
    State.handOn_stage]
  rcases hpushed with ⟨ab, rest, hextract, hacc⟩ | ⟨f, ab, rest, hextract, hframe⟩
  · simp only [exec_frameExtract_pushed _ hextract, State.handOn_stage, hacc]
    rfl
  simp only [exec_frameExtract_pushed _ hextract, State.handOn_stage]
  rcases hframe with ⟨e, hdecode, hacc⟩ | ⟨dt, hdecode, hacc⟩
  · simp only [exec_protoDecode_of_error _ hdecode, State.raise_stage, hacc]
    rfl
  · simp only [exec_protoDecode_of_ok _ hdecode, hacc]
    rfl

/-- The record counts exactly when a peak was classified, on the window HIST.SHIFT left (R121). -/
theorem DecState.accept_count (d : DecState) (p : Sample) :
    (d.accept p).1.count =
      (d.accept p).1.symbol.map fun _ => activeCount (d.histShift p.level).w := by
  obtain ⟨hwindow, -⟩ := d.detected_frame p
  rcases d.accept_cases p with ⟨-, hacc⟩ | ⟨-, ⟨-, hacc⟩ | ⟨-, ⟨e, -, hacc⟩ |
    ⟨-, ⟨ab, rest, -, hacc⟩ | ⟨f, ab, rest, -, ⟨e, -, hacc⟩ | ⟨dt, -, hacc⟩⟩⟩⟩⟩ <;> rw [hacc]
  · rfl
  · rfl
  · rfl
  all_goals simp [symbolPoll, hwindow]

theorem State.decPoll_handOn_frame (s : State) (smp : Option Sample) (o : StageOut) :
    (s.decPoll smp).2.handOn o = { s with
      dec := (s.decPoll smp).2.dec
      clk := { s.clk with lasterr := (s.decPoll smp).2.clk.lasterr }
      stage := o } := by
  obtain ⟨hhw, hrtc, hout, hinbox, -, hclk⟩ := s.decPoll_frame smp
  rw [← hhw, ← hrtc, ← hout, ← hinbox, ← hclk]
  rfl

/-- Settles O29: the stages run one by one hand on what the record of the poll shows, in its order, and
a record shows a stage only with those before it. -/
theorem pollRunsTheStagesInOrder : Obligations.PollRunsTheStagesInOrder := by
  refine ⟨fun s smp => exec_decPoll smp s, fun s p h => ?_⟩
  have hdue : s.dec.Due p := fun l hl => (h l hl).symm
  have hpoll : (s.decPoll (some p)).1 = (s.dec.accept p).1 := by
    rw [State.decPoll_fst, DecState.poll_of_due hdue]
  have hstaged := s.dec.accept_staged p
  obtain ⟨hsynced, herror⟩ := (s.dec.accept p).1.outcome_iff_lastNoted
  obtain ⟨haccepted, -⟩ := s.dec.accept_remembers p
  refine ⟨_, _, (s.dec.accept p).1, _, exec_decPoll (some p) s, stagewise_eq hdue, ?state, ?frame,
    haccepted, ?score, ?peak, ?symbol, ?count, ?fr, ?aborted, hsynced, herror⟩
  case state =>
    rw [hpoll]
    rfl
  case frame => exact s.decPoll_handOn_frame (some p) _
  case score => exact fun n => (Poll.score_mem_noted _ n).symm
  case peak =>
    rw [Poll.peak_mem_noted]
    exact (and_iff_right_of_imp hstaged.score_of_peak).symm
  case symbol => exact fun sym => (Poll.symbol_mem_noted _ sym).symm
  case count =>
    intro c
    rw [DecState.accept_count, ← activeCount_eq_length_filter]
    cases (s.dec.accept p).1.symbol <;> simp [eq_comm]
  case fr =>
    intro fr
    simp only [Poll.frame_mem_noted]
    exact ⟨fun hfr => ⟨_, hstaged.symbol_of_frame (hfr ▸ rfl), hfr.symm, rfl⟩,
      fun ⟨_, _, hfr, _⟩ => hfr.symm⟩
  case aborted =>
    simp only [Poll.frame_mem_noted]
    exact ⟨fun hab => ⟨_, hstaged.symbol_of_aborted hab, rfl, hab.symm⟩,
      fun ⟨_, _, _, hab⟩ => hab.symm⟩

end Sys2Proof.Machine

namespace Sys2Proof.Machine

/-! ### RDREG by number: a defined number runs its row, an undefined one is refused (R208, R70 (d)) -/

/-- The general RDREG and the row the decoder names for the same number do the same (entry 8). -/
theorem exec_rdreg_eq_row (r : BitVec 8) (s : State) : exec (.rdreg r) s = exec (rdregRow r) s := by
  unfold rdregRow
  cases hr : Reg.ofNumber r with
  | none => rfl
  | some reg =>
    rw [exec_row]
    simp only [exec, execRdreg, hr]

theorem rdregRow_of_ofNumber {r : BitVec 8} {reg : Reg} (h : Reg.ofNumber r = some reg) :
    rdregRow r = reg.row := by
  simp only [rdregRow, h]

/-- Settles O6: a defined number runs its register's row, which only answers. -/
theorem rdregReadsOrRefuses : Obligations.RdregReadsOrRefuses := by
  refine fun r s => ⟨fun hdefined => ?_, fun hundefined => ?_⟩
  · obtain ⟨reg, hreg⟩ := Option.isSome_iff_exists.mp (registerDefined_iff r ▸ hdefined)
    have hrow : exec (.rdreg r) s = exec reg.row s := by
      rw [exec_rdreg_eq_row, rdregRow_of_ofNumber hreg]
    obtain ⟨p, hanswers⟩ := exec_row_answers reg s
    exact ⟨reg, hreg, Reg.number_of_ofNumber hreg, hrow, p, hrow.trans hanswers⟩
  · exact ⟨0#56, (exec_rdreg_eq_row r s).trans (exec_rdregRow_of_undefined s hundefined)⟩

/-! ### NOP, ACK and the SET commands (R204 to R207, R211) -/

theorem State.respond_eq_answer (s : State) (data : Word) :
    ∃ p, s.respond data = { s with out := answer false data p } :=
  ⟨0#56, rfl⟩

theorem State.refuse_eq_answer (s : State) :
    ∃ p, s.refuse = { s with out := answer true 0#32 p } :=
  ⟨0#56, rfl⟩

theorem exec_ack (s : State) :
    exec .ack s = .next ((s.setClk { s.clk with
      phase := .default (s.clk.datetime.map fun now => now.date.day) }).respond 0#32) := rfl

theorem exec_setdawn (v : Bool) (min : Minutes) (s : State) :
    exec (.setdawn v min) s = .next
      ((s.setClk { s.clk with dawnDuration := minutesOperand v min }).respond 0#32) := rfl

theorem exec_setweek_of_bad {v : Bool} {hour : BitVec 5} {minute : BitVec 6} (s : State)
    (h : timeOperandBad v hour minute = true) :
    exec (.setweek v hour minute) s = .next s.refuse := by
  simp only [exec, execSetweek, h, if_true]

theorem exec_setwknd_of_bad {v : Bool} {hour : BitVec 5} {minute : BitVec 6} (s : State)
    (h : timeOperandBad v hour minute = true) :
    exec (.setwknd v hour minute) s = .next s.refuse := by
  simp only [exec, execSetwknd, h, if_true]

theorem timeOperandBad_eq_false_iff (v : Bool) (hour : BitVec 5) (minute : BitVec 6) :
    timeOperandBad v hour minute = false ↔
      v = false ∨ (hour.toNat ≤ 23 ∧ minute.toNat ≤ 59) := by
  cases v <;> simp [timeOperandBad]

theorem exec_nop (s : State) : exec .nop s = .next (s.respond 0#32) := rfl

/-- Settles O47: the word of opcode 0 is NOP, and NOP only answers. -/
theorem nopChangesNothing : Obligations.NopChangesNothing := by
  obtain ⟨hdecode, -⟩ := sampleWordsDecodeRight
  refine ⟨hdecode, fun s => ?_⟩
  obtain ⟨p, hanswer⟩ := s.respond_eq_answer 0#32
  exact ⟨p, by rw [exec_nop, hanswer]⟩

/-- Settles O44: the day is that of the `datetime` held, if one is held. -/
theorem ackStoresTheDay : Obligations.AckStoresTheDay := by
  obtain ⟨-, -, hdecode, -⟩ := sampleWordsDecodeRight
  refine ⟨hdecode, fun s => ⟨0#56, ?_⟩⟩
  rw [exec_ack]
  cases s.clk.datetime <;> rfl

/-- Settles O45: SETDAWN writes one field of the Clock aggregate, and answers. -/
theorem setdawnWritesTheDuration : Obligations.SetdawnWritesTheDuration := by
  intro v min s
  obtain ⟨p, hanswer⟩ := (s.setClk { s.clk with
    dawnDuration := minutesOperand v min }).respond_eq_answer 0#32
  exact ⟨p, (exec_setdawn v min s).trans (congrArg _ hanswer)⟩

/-- Settles O46: both commands refuse exactly the operands that are no Time. -/
theorem setSunriseWritesOrRefuses : Obligations.SetSunriseWritesOrRefuses := by
  refine fun v hour minute s => ⟨fun hrange => ?writes, fun hv hrange => ?refuses⟩
  case writes =>
    have hok := (timeOperandBad_eq_false_iff v hour minute).mpr hrange
    obtain ⟨p, hweek⟩ := (s.setClk { s.clk with
      weekSunrise := timeOperand v hour minute }).respond_eq_answer 0#32
    obtain ⟨q, hweekend⟩ := (s.setClk { s.clk with
      weekendSunrise := timeOperand v hour minute }).respond_eq_answer 0#32
    exact ⟨⟨p, (exec_setweek_of_ok s hok).trans (congrArg _ hweek)⟩,
      ⟨q, (exec_setwknd_of_ok s hok).trans (congrArg _ hweekend)⟩⟩
  case refuses =>
    have hbad := (timeOperandBad_iff v hour minute).mpr ⟨hv, hrange⟩
    obtain ⟨p, hrefuse⟩ := s.refuse_eq_answer
    exact ⟨⟨p, (exec_setweek_of_bad s hbad).trans (congrArg _ hrefuse)⟩,
      ⟨p, (exec_setwknd_of_bad s hbad).trans (congrArg _ hrefuse)⟩⟩

end Sys2Proof.Machine

namespace Sys2Proof.Machine

/-! ### What UPDATE leaves in each field of the Clock aggregate and of the outputs (R191 to R194) -/

theorem exec_update (s : State) : exec .update s = .next s.update := rfl

theorem State.update_lasterr_eq (s : State) :
    s.update.clk.lasterr = (s.decPoll s.hw.pub).2.clk.lasterr := by
  rw [State.update_eq]
  rfl

theorem State.update_lastBit (s : State) :
    s.update.clk.lastBit = ((s.dec.poll s.hw.pub).1.symbol <|> s.clk.lastBit) := by
  rw [State.update_eq]
  rfl

theorem State.update_lastRadioSync_of_synced {s : State} {dt : Datetime}
    (h : (s.dec.poll s.hw.pub).1.outcome = .synced dt) : s.update.clk.lastRadioSync = some dt := by
  rw [State.update_eq]
  simp only [ClockAgg.merged, h]

theorem State.update_lastRadioSync_of_not_synced {s : State}
    (h : ∀ dt, (s.dec.poll s.hw.pub).1.outcome ≠ .synced dt) :
    s.update.clk.lastRadioSync = s.clk.lastRadioSync := by
  rw [State.update_eq]
  simp only [ClockAgg.merged]
  split
  · exact absurd ‹_› (h _)
  · rfl
  · rfl

theorem State.update_datetime (s : State) : s.update.clk.datetime = s.rtc.reading := by
  rw [State.update_eq]
  rfl

/-- UPDATE writes neither the configuration nor another agent's fields (R240). -/
theorem State.update_frame (s : State) :
    s.update.clk.dawnDuration = s.clk.dawnDuration ∧
    s.update.clk.weekSunrise = s.clk.weekSunrise ∧
    s.update.clk.weekendSunrise = s.clk.weekendSunrise ∧ s.update.hw = s.hw ∧
    s.update.rtc = s.rtc ∧ s.update.inbox = s.inbox ∧ s.update.stage = s.stage := by
  rw [State.update_eq]
  exact ⟨rfl, rfl, rfl, rfl, rfl, rfl, rfl⟩

/-- Whatever its status word, an UPDATE makes the RTC requests of its poll's outcome. -/
theorem State.update_out (s : State) :
    s.update.out = (s.dec.poll s.hw.pub).1.outputs (statusWord s.flags) := by
  unfold State.flags
  rw [State.update_eq]
  rfl

theorem Poll.outputs_rtcRreq (r : Poll) (w : Word) : (r.outputs w).rtcRreq = true := by
  unfold Poll.outputs
  split <;> rfl

theorem Poll.outputs_rtcWdata_of_synced {r : Poll} {dt : Datetime} (w : Word)
    (h : r.outcome = .synced dt) : (r.outputs w).rtcWdata = packDatetime dt := by
  simp only [Poll.outputs, h]

theorem PollEnd.isSynced_iff {o : PollEnd} : o.isSynced = true ↔ ∃ dt, o = .synced dt := by
  cases o <;> simp [PollEnd.isSynced]

/-- A Datetime from the radio has no second (R153, R192). -/
theorem DecState.poll_synced_second {d : DecState} {smp : Option Sample} {dt : Datetime}
    (h : (d.poll smp).1.outcome = .synced dt) : dt.time.second = none := by
  obtain ⟨f, hf⟩ := DecState.poll_synced h
  exact protoDecode_second hf

/-! ### The phase machine as a relation: guard, sunrise, transitions (R198 to R203) -/

theorem guardHolds_iff (phase : Phase) (now : Datetime) :
    guardHolds phase now = true ↔ phase = .default (some now.date.day) := by
  cases phase with
  | default day => cases day <;> simp [guardHolds]
  | dawn _ => simp [guardHolds]
  | sunRise _ => simp [guardHolds]

theorem sunriseFor_eq (c : ClockAgg) (now : Datetime) :
    sunriseFor c now = if now.date.weekday.toNat = 6 ∨ now.date.weekday.toNat = 7
      then c.weekendSunrise else c.weekSunrise := by
  simp only [sunriseFor, ← BitVec.toNat_inj, BitVec.toNat_ofNat, Nat.reducePow, Nat.reduceMod]

/-- Hour and minute fields hold at most 31 and 63, so a difference of minutes of the day fits a phase's
12 bits. -/
theorem elapsedMinutes_lt (now : Datetime) (sunrise : Time) : elapsedMinutes now sunrise < 4096 := by
  have hhour := now.time.hour.isLt
  have hminute := now.time.minute.isLt
  simp only [elapsedMinutes, Time.minuteOfDay]
  omega

theorem phaseAtElapsed_sunRise {c : ClockAgg} {e : Int} (he : 0 ≤ e) (hlt : e < 4096) :
    ∃ m : Minutes, phaseAtElapsed c e = .sunRise m ∧ (m.toNat : Int) = e := by
  refine ⟨BitVec.ofNat 12 e.toNat, if_pos he, ?_⟩
  rw [BitVec.toNat_ofNat]
  omega

theorem phaseAtElapsed_dawn {c : ClockAgg} {e : Int} {dur : Minutes} (he : e < 0)
    (hdur : c.dawnDuration = some dur) (hreached : 0 ≤ e + dur.toNat) :
    ∃ m : Minutes, phaseAtElapsed c e = .dawn m ∧ (m.toNat : Int) = e + dur.toNat := by
  have hlt := dur.isLt
  refine ⟨BitVec.ofNat 12 (e + dur.toNat).toNat, ?_, ?_⟩
  · simp only [phaseAtElapsed, hdur, if_neg (Int.not_le.mpr he), if_pos hreached]
  · rw [BitVec.toNat_ofNat]
    omega

theorem phaseAtElapsed_unreached {c : ClockAgg} {e : Int} (he : e < 0)
    (hbefore : ∀ dur, c.dawnDuration = some dur → e + dur.toNat < 0) :
    phaseAtElapsed c e = c.phase := by
  rw [phaseAtElapsed, if_neg (Int.not_le.mpr he)]
  split
  · rfl
  · next dur hdur => exact if_neg (Int.not_le.mpr (hbefore dur hdur))

theorem phaseAt_of_guard {c : ClockAgg} {now : Datetime}
    (h : c.phase = .default (some now.date.day)) : phaseAt c now = c.phase :=
  if_pos ((guardHolds_iff c.phase now).mpr h)

section
variable {c : ClockAgg} {now : Datetime} (hguard : c.phase ≠ .default (some now.date.day))
include hguard

theorem phaseAt_of_no_sunrise (h : sunriseFor c now = none) : phaseAt c now = c.phase := by
  rw [phaseAt, if_neg (mt (guardHolds_iff c.phase now).mp hguard), h]

theorem phaseAt_of_sunrise {sunrise : Time} (h : sunriseFor c now = some sunrise) :
    phaseAt c now = phaseAtElapsed c (elapsedMinutes now sunrise) := by
  rw [phaseAt, if_neg (mt (guardHolds_iff c.phase now).mp hguard), h]

end

theorem elapsedMinutes_eq (now : Datetime) (sunrise : Time) :
    elapsedMinutes now sunrise = ((now.time.hour.toNat : Int) * 60 + now.time.minute.toNat)
      - (sunrise.hour.toNat * 60 + sunrise.minute.toNat) := by
  simp only [elapsedMinutes, Time.minuteOfDay, Nat.cast_add, Nat.cast_mul, Nat.cast_ofNat]

theorem phaseAt_follows (c : ClockAgg) (now : Datetime) : PhaseFollows c now (phaseAt c now) := by
  refine ⟨phaseAt_of_guard, fun hguard => ?_⟩
  rw [← sunriseFor_eq]
  refine ⟨phaseAt_of_no_sunrise hguard, ?_⟩
  rintro sunrise hsunrise e rfl
  have hlt := elapsedMinutes_lt now sunrise
  rw [phaseAt_of_sunrise hguard hsunrise, ← elapsedMinutes_eq]
  exact ⟨fun he => phaseAtElapsed_sunRise he hlt,
    fun he _ hdur hreached => phaseAtElapsed_dawn he hdur hreached,
    fun he hbefore => phaseAtElapsed_unreached he hbefore⟩

/-- Settles O41: the evaluation writes the phase, and with the time known it is the one of the rules. -/
theorem phaseEvalFollowsTheRules : Obligations.PhaseEvalFollowsTheRules := by
  intro s
  refine ⟨s.phaseEval, rfl, ?_⟩
  rw [State.phaseEval_eq]
  refine ⟨rfl, fun hnone => ?_, fun now hnow => ?_⟩
  · simp only [ClockAgg.phaseAfter, hnone]
  · simp only [ClockAgg.phaseAfter, hnow]
    exact phaseAt_follows s.clk now

/-- The read, not the datetime held before, is what UPDATE evaluates the phase on (R197). -/
theorem State.update_phase_follows {s : State} {now : Datetime}
    (h : s.update.clk.datetime = some now) : PhaseFollows s.clk now s.update.clk.phase := by
  rw [State.update_eq] at h ⊢
  simp only [ClockAgg.merged] at h
  simp only [ClockAgg.phaseAfter, ClockAgg.merged, h]
  exact phaseAt_follows _ now

/-! ### Which commands touch the phase (R213) -/

/-- No command but UPDATE and ACK writes the phase. -/
theorem command_phase_eq {i : Instr} {w : Word} {s t : State} (hd : decode w = .ok i)
    (h : exec i s = .next t) (hupdate : w ≠ 0x01000000#32) (hack : w ≠ 0x02000000#32) :
    t.clk.phase = s.clk.phase := by
  rcases command_cases hd h with rfl | ⟨data, rfl⟩ | ⟨hw, -⟩ | ⟨hw, -⟩ | ⟨-, rfl⟩ |
    ⟨-, -, rfl⟩ | ⟨-, -, rfl⟩
  · rfl
  · rfl
  · exact absurd hw hupdate
  · exact absurd hw hack
  all_goals rfl

theorem step_host_phase_eq {s t : State} {w : Word} {rest : List Event}
    (hin : s.inbox = .host w :: rest) (h : step s = .next t) (hupdate : w ≠ 0x01000000#32)
    (hack : w ≠ 0x02000000#32) : t.clk.phase = s.clk.phase := by
  rw [step_host hin] at h
  cases hd : decode w with
  | ok i =>
    rw [hd] at h
    exact command_phase_eq (s := s.took rest) hd h hupdate hack
  | error _ =>
    rw [hd] at h
    injection h with h
    exact h ▸ rfl

/-- Settles O42: one row for ACK, one for UPDATE, one for every other word, one for reset. -/
theorem phaseTransitionTable : Obligations.PhaseTransitionTable := by
  intro s
  refine ⟨⟨_, exec_ack s, ?known, ?unknown⟩,
    ⟨_, exec_update s, State.update_phase_of_no_time, fun _ => State.update_phase_follows⟩,
    ?other, ?reset⟩
  case known => exact fun now hnow => by simp [hnow]
  case unknown => exact fun hnone => by simp [hnone]
  case other =>
    intro w rest hin hupdate hack
    obtain ⟨t, ht⟩ := exists_step_eq_next s
    exact ⟨t, ht, step_host_phase_eq hin ht hupdate hack⟩
  case reset => exact fun rest hin => ⟨_, step_of_fetch_run (fetch_cons hin), rfl⟩

/-! ### The guard after ACK (R198, R204, R269) -/

theorem ack_phase {s t : State} {now : Datetime} (hnow : s.clk.datetime = some now)
    (h : exec .ack s = .next t) : t.clk.phase = .default (some now.date.day) := by
  rw [exec_ack] at h
  injection h with h
  subst h
  simp [hnow]

theorem State.update_phase_of_guard {s : State} {now : Datetime}
    (hread : s.update.clk.datetime = some now)
    (hguard : s.clk.phase = .default (some now.date.day)) :
    s.update.clk.phase = s.clk.phase :=
  (State.update_phase_follows hread).1 hguard

theorem State.update_phchgBit (s : State) :
    s.update.out.rspData.getLsbD 10 = decide (s.update.clk.phase ≠ s.clk.phase) := by
  obtain ⟨-, -, -, -, -, -, -, -, -, -, hphchg, -⟩ := statusWord_bits s.flags
  rw [State.update_rspData, hphchg]
  rfl

/-- Settles O43: the phase ACK left holds the guard of every reading with that day. -/
theorem ackSuppressesTheDay : Obligations.AckSuppressesTheDay := by
  intro s t u now later hnow hack hphase hok hunpack hday
  have hread : u.update.clk.datetime = some later := by
    rw [State.update_datetime, RtcPort.reading, if_pos hok, hunpack]
  have hguard : u.clk.phase = .default (some later.date.day) := by
    rw [hphase, ack_phase hnow hack, hday]
  have hkept := State.update_phase_of_guard hread hguard
  refine ⟨_, exec_update u, hkept.trans hphase, ?_⟩
  rw [State.update_phchgBit, hkept]
  simp

/-! ### UPDATE, from the record of its poll (R190 to R194, R197, R212) -/

/-- Settles O34: field by field. -/
theorem updateRunsItsSixSteps : Obligations.UpdateRunsItsSixSteps := by
  rintro s _ _ ⟨⟩
  obtain ⟨hdawn, hweek, hweekend, hhw, hrtc, hinbox, hstage⟩ := s.update_frame
  refine ⟨s.update, rfl, s.update_dec, s.update_lasterr_eq, ?symbol, ?noSymbol, ?synced, ?notSynced,
    ?wsec, ?rreq, s.update_rspErr, s.update_datetime, State.update_phase_of_no_time,
    fun _ => State.update_phase_follows, s.update_rspData, hdawn, hweek, hweekend, hhw, hrtc, hinbox,
    hstage⟩
  case symbol =>
    intro sym (hsym : (s.dec.poll s.hw.pub).1.symbol = some sym)
    rw [State.update_lastBit, hsym]
    rfl
  case noSymbol =>
    intro (hsym : (s.dec.poll s.hw.pub).1.symbol = none)
    rw [State.update_lastBit, hsym]
    rfl
  case synced =>
    intro dt hdt
    refine ⟨DecState.poll_synced_second hdt, State.update_lastRadioSync_of_synced hdt, ?_, ?_⟩
    · exact s.update_rtcWreq.trans (PollEnd.isSynced_iff.mpr ⟨dt, hdt⟩)
    · rw [State.update_out]
      exact Poll.outputs_rtcWdata_of_synced _ hdt
  case notSynced =>
    intro hnot
    refine ⟨State.update_lastRadioSync_of_not_synced hnot, ?_⟩
    rw [State.update_rtcWreq, ← Bool.not_eq_true, PollEnd.isSynced_iff]
    exact fun ⟨dt, hdt⟩ => hnot dt hdt
  case wsec =>
    rw [State.update_out]
    exact Poll.outputs_wsecValid _ fun _ => DecState.poll_synced_second
  case rreq =>
    rw [State.update_out]
    exact Poll.outputs_rtcRreq _ _

end Sys2Proof.Machine

namespace Sys2Proof.Machine

/-! ### The status word of an UPDATE (R68, R193, R212) -/

theorem statusWord_toNat_lt (f : UpdateFlags) : (statusWord f).toNat < 4096 :=
  Nat.lt_pow_two_of_testBit (n := 12) _ fun i hi => by
    rw [BitVec.testBit_toNat, statusWord_high f i hi]

/-- The mask of the bits that show the Decoder's record leaves out TIME_OK and PHCHG. -/
theorem statusWord_and_recordBits (f : UpdateFlags) :
    statusWord f &&& 0x9FF#32 = statusWord { f with timeOk := false, phchg := false } := by
  have hmask : 0x9FF#32 = 0#20 ++ 1#1 ++ 0#1 ++ 0#1 ++ 1#1 ++ 1#1 ++ 1#1 ++ 1#1 ++ 1#1 ++ 1#1
      ++ 1#1 ++ 1#1 ++ 1#1 := by decide
  have hone (b : Bool) : BitVec.ofBool b &&& 1#1 = BitVec.ofBool b := by cases b <;> rfl
  rw [statusWord, statusWord, hmask]
  iterate 12 rw [BitVec.and_append]
  simp [hone]

/-- RTCW_OK is bit 8 and stands in no other. -/
theorem statusWord_xor_rtcwOk (f : UpdateFlags) (ok : Bool) :
    (statusWord { f with rtcwOk := ok } ^^^ statusWord f) &&& 0xFFFFFEFF#32 = 0#32 := by
  have hmask : 0xFFFFFEFF#32 = BitVec.allOnes 20 ++ 1#1 ++ 1#1 ++ 1#1 ++ 0#1 ++ 1#1 ++ 1#1 ++ 1#1
      ++ 1#1 ++ 1#1 ++ 1#1 ++ 1#1 ++ 1#1 := by decide
  rw [statusWord, statusWord, hmask]
  iterate 12 rw [BitVec.xor_append, BitVec.and_append]
  simp

/-- The flags of an UPDATE that raised an error, TIME_OK and PHCHG apart: whether a peak was confirmed
before it, and a frame taken. -/
def errorFlags (confirmed framed : Bool) : UpdateFlags where
  smpAcc := confirmed
  score := confirmed
  peak := confirmed
  sym := framed
  frame := framed
  sync := false
  derr := true
  rtcw := false
  rtcwOk := false
  timeOk := false
  phchg := false
  fabort := false

theorem statusWord_errorFlags :
    statusWord (errorFlags false false) = 0x040#32 ∧ statusWord (errorFlags true false) = 0x047#32 ∧
    statusWord (errorFlags true true) = 0x05F#32 := by
  decide

/-- The bits that show the record of a poll with an error, by how far the pipeline came (R212). -/
theorem statusWord_of_error {d : DecState} {smp : Option Sample} {e : DecErr}
    (h : (d.poll smp).1.outcome = .error e) (wack : Bool) (datetime : Option Datetime)
    (before after : Phase) :
    let shown := statusWord (updateFlags (d.poll smp).1 wack datetime before after) &&& 0x9FF#32
    (e.kind.code.toNat = 1 → shown = 0x040#32) ∧
    (2 ≤ e.kind.code.toNat → e.kind.code.toNat ≤ 4 → shown = 0x047#32) ∧
    (5 ≤ e.kind.code.toNat → shown = 0x05F#32) := by
  simp only [statusWord_and_recordBits]
  obtain ⟨hmissed, hspacing, hproto⟩ := statusWord_errorFlags
  rcases DecState.poll_error h with ⟨hcode, hr⟩ | ⟨hcode, hcode', n, hr⟩ |
    ⟨hcode, n, sym, c, f, hr⟩ <;> rw [hr]
  · exact ⟨fun _ => hmissed, fun _ _ => by omega, fun _ => by omega⟩
  · exact ⟨fun _ => by omega, fun _ _ => hspacing, fun _ => by omega⟩
  · exact ⟨fun _ => by omega, fun _ _ => by omega, fun _ => hproto⟩

/-- Settles O35: each bit is its flag, and the flags of an error are those of its record. -/
theorem statusWordSummarisesTheUpdate : Obligations.StatusWordSummarisesTheUpdate := by
  refine fun s => ⟨s.update, rfl, ?_⟩
  rintro _ rfl
  obtain ⟨b0, b1, b2, b3, b4, b5, b6, b7, b8, b9, b10, b11⟩ := statusWord_bits s.flags
  simp only [State.update_rspData, b0, b1, b2, b3, b4, b5, b6, b7, b8, b9, b10, b11]
  refine ⟨.rfl, Option.isSome_iff_exists, .rfl, Option.isSome_iff_exists, Option.isSome_iff_exists,
    PollEnd.isSynced_iff, PollEnd.isError_iff, PollEnd.isSynced_iff, ?rtcwOk,
    Option.isSome_iff_exists, decide_eq_true_iff, .rfl, statusWord_toNat_lt _,
    fun e he => statusWord_of_error he ..⟩
  case rtcwOk => exact Bool.and_eq_true_iff.trans (and_congr_left' PollEnd.isSynced_iff)

/-! ### UPDATE and the write's acknowledgement (R193) -/

/-- The state with another `rtc_wack`. -/
def State.withWack (s : State) (ack : Bool) : State := { s with rtc := { s.rtc with wack := ack } }

theorem State.decPoll_withWack (s : State) (ack : Bool) (smp : Option Sample) :
    (s.withWack ack).decPoll smp = ((s.decPoll smp).1, (s.decPoll smp).2.withWack ack) := by
  rw [State.decPoll_eq, State.decPoll_eq]
  simp only [State.withWack]
  cases (s.dec.poll smp).1.outcome <;> rfl

theorem State.update_withWack_clk (s : State) (ack : Bool) :
    (s.withWack ack).update.clk = s.update.clk := by
  rw [State.update_eq, State.update_eq]
  have hpub : (s.withWack ack).hw.pub = s.hw.pub := rfl
  rw [hpub, State.decPoll_withWack]
  rfl

/-- The flags of the two UPDATEs are the same but for RTCW_OK. -/
theorem State.flags_withWack (s : State) (ack : Bool) :
    (s.withWack ack).flags = { s.flags with rtcwOk := (s.withWack ack).flags.rtcwOk } := by
  unfold State.flags
  rw [State.update_withWack_clk]
  rfl

/-- The status word is the one output of an UPDATE that its flags enter. -/
theorem Poll.outputs_requests (r : Poll) (w w' : Word) :
    (r.outputs w).rtcWreq = (r.outputs w').rtcWreq ∧
    (r.outputs w).rtcWdata = (r.outputs w').rtcWdata ∧
    (r.outputs w).rtcRreq = (r.outputs w').rtcRreq := by
  unfold Poll.outputs
  cases r.outcome <;> exact ⟨rfl, rfl, rfl⟩

/-- Settles O37: the acknowledgement enters the flag RTCW_OK and nothing else. -/
theorem writeAcknowledgementChangesNoState : Obligations.WriteAcknowledgementChangesNoState := by
  intro s ack
  have hdec : (s.withWack ack).update.dec = s.update.dec := by
    rw [State.update_dec, State.update_dec, State.decPoll_dec, State.decPoll_dec]
    rfl
  have hhw : (s.withWack ack).update.hw = s.update.hw := by
    rw [State.update_hw, State.update_hw]
    rfl
  have hstatus : ((s.withWack ack).update.out.rspData ^^^ s.update.out.rspData) &&& 0xFFFFFEFF#32
      = 0#32 := by
    rw [State.update_rspData, State.update_rspData, State.flags_withWack]
    exact statusWord_xor_rtcwOk _ _
  obtain ⟨hwreq, hwdata, hrreq⟩ := (s.dec.poll s.hw.pub).1.outputs_requests
    (statusWord (s.withWack ack).flags) (statusWord s.flags)
  rw [← State.update_out s] at hwreq hwdata hrreq
  have hout := (s.withWack ack).update_out
  exact ⟨_, _, rfl, rfl, hdec, s.update_withWack_clk ack, hhw, hout ▸ hwreq, hout ▸ hwdata,
    hout ▸ hrreq, hstatus⟩

end Sys2Proof.Machine

namespace Sys2Proof.Machine

/-! ### The nibbles of an RTC payload (R76) -/

theorem payloadByte_toNat (p : Payload) (i : Nat) :
    (payloadByte p i).toNat = p.toNat / 16 ^ (2 * i) % 256 := by
  rw [payloadByte, BitVec.extractLsb'_toNat, Nat.shiftRight_eq_div_pow, Nat.pow_mul, Nat.pow_mul]

theorem nibble_even (p : Payload) (i : Nat) : nibble p (2 * i) = (payloadByte p i).toNat % 16 := by
  rw [payloadByte_toNat, nibble]
  omega

theorem nibble_odd (p : Payload) (i : Nat) :
    nibble p (2 * i + 1) = (payloadByte p i).toNat / 16 := by
  rw [payloadByte_toNat, nibble, Nat.pow_succ, ← Nat.div_div_eq_div_mul]
  omega

theorem bcdOk_payloadByte (p : Payload) (i : Nat) :
    bcdOk (payloadByte p i) = true ↔ nibble p (2 * i) ≤ 9 ∧ nibble p (2 * i + 1) ≤ 9 := by
  simp only [bcdOk, Bool.and_eq_true, decide_eq_true_eq, nibble_even, nibble_odd, and_comm]

theorem unbcd_payloadByte (p : Payload) (i : Nat) :
    unbcd (payloadByte p i) = 10 * nibble p (2 * i + 1) + nibble p (2 * i) := by
  rw [nibble_even, nibble_odd, unbcd, Nat.mul_comm]

theorem payloadByte_eq_nibbles (p : Payload) (i : Nat) :
    (payloadByte p i).toNat = 16 * nibble p (2 * i + 1) + nibble p (2 * i) := by
  rw [nibble_even, nibble_odd, Nat.div_add_mod]

/-! ### The Datetime a payload denotes (R195) -/

/-- `unpack` as a relation: the bytes that are digits, the ranges, and the fields. -/
theorem unpackDatetime_eq_some_iff (p : Payload) (d : Datetime) :
    unpackDatetime p = some d ↔
      (∀ i ∈ [0, 1, 2, 4, 5, 6], bcdOk (payloadByte p i) = true) ∧
      payloadInRange (unbcd (payloadByte p 0)) (unbcd (payloadByte p 1)) (unbcd (payloadByte p 2))
        (payloadByte p 3).toNat (unbcd (payloadByte p 4)) (unbcd (payloadByte p 5)) = true ∧
      { date := { day := BitVec.ofNat 5 (unbcd (payloadByte p 4)),
                  month := BitVec.ofNat 4 (unbcd (payloadByte p 5)),
                  year := BitVec.ofNat 7 (unbcd (payloadByte p 6)),
                  weekday := BitVec.ofNat 3 (payloadByte p 3).toNat }
        time := { hour := BitVec.ofNat 5 (unbcd (payloadByte p 2)),
                  minute := BitVec.ofNat 6 (unbcd (payloadByte p 1)),
                  second := some (BitVec.ofNat 6 (unbcd (payloadByte p 0))) } } = d := by
  simp only [unpackDatetime, Option.ite_none_right_eq_some, Option.some.injEq, Bool.and_eq_true,
    List.forall_mem_cons, List.not_mem_nil, false_imp_iff, implies_true, and_true, and_assoc]

theorem payloadInRange_iff (second minute hour weekday day month : Nat) :
    payloadInRange second minute hour weekday day month = true ↔
      second ≤ 59 ∧ minute ≤ 59 ∧ hour ≤ 23 ∧ (1 ≤ weekday ∧ weekday ≤ 7) ∧
        (1 ≤ day ∧ day ≤ 31) ∧ 1 ≤ month ∧ month ≤ 12 := by
  simp only [payloadInRange, Bool.and_eq_true, decide_eq_true_eq, and_assoc]

/-- The two nibbles of every byte but the weekday's are digits (R195). -/
theorem bytes_bcdOk_iff (p : Payload) :
    (∀ i ∈ [0, 1, 2, 4, 5, 6], bcdOk (payloadByte p i) = true) ↔
      ∀ i ∈ [0, 1, 2, 3, 4, 5, 8, 9, 10, 11, 12, 13], nibble p i ≤ 9 := by
  simp only [bcdOk_payloadByte, List.forall_mem_cons, List.not_mem_nil, false_imp_iff, implies_true,
    and_true, and_assoc, Nat.reduceMul, Nat.reduceAdd]

/-- The range checks and the digit of the year keep every field within its width, so `unpack` cuts
nothing off. -/
theorem unpackDatetime_iff_denotes (p : Payload) (d : Datetime) :
    unpackDatetime p = some d ↔ PayloadDenotes p d := by
  rw [unpackDatetime_eq_some_iff, bytes_bcdOk_iff, payloadInRange_iff]
  simp only [unbcd_payloadByte, payloadByte_eq_nibbles, Nat.reduceMul, Nat.reduceAdd]
  constructor
  · rintro ⟨hdigits, ⟨hsecond, hminute, hhour, hweekday, hday, hmonth⟩, rfl⟩
    have hyear1 := hdigits 12 (by decide)
    have hyear10 := hdigits 13 (by decide)
    refine ⟨hdigits, ⟨_, rfl, ?_⟩, ?_⟩ <;> simp only [BitVec.toNat_ofNat] <;> omega
  · rintro ⟨hdigits, ⟨sec, hsec, hsecond, hsecond'⟩, ⟨hminute, hminute'⟩, ⟨hhour, hhour'⟩,
      ⟨hweekday, hweekday'⟩, ⟨hday, hday'⟩, ⟨hmonth, hmonth', hmonth''⟩, hyear⟩
    have hweekdayLt := d.date.weekday.isLt
    have hdayLt := d.date.day.isLt
    refine ⟨hdigits, by omega, ?_⟩
    rw [← hsecond, ← hminute, ← hhour, ← hweekday, ← hday, ← hmonth, ← hyear]
    simp only [BitVec.ofNat_toNat, BitVec.setWidth_eq, ← hsec]

/-- Settles O38: a read that succeeded takes what its payload denotes. -/
theorem rtcReadTakesExactlyValidPayloads : Obligations.RtcReadTakesExactlyValidPayloads := by
  refine fun s => ⟨s.rtcRead, rfl, rfl, fun hfailed => ?_, fun hok d => ?_⟩
  · simp [RtcPort.reading, hfailed]
  · simp only [State.rtcRead_clk, RtcPort.reading, hok, if_true]
    exact unpackDatetime_iff_denotes s.rtc.rdata d

/-! ### The payload of a write (R196) -/

theorem nibbles_of_bcd {p : Payload} {i v : Nat} (h : payloadByte p i = bcd v) (hv : v ≤ 99) :
    10 * nibble p (2 * i + 1) + nibble p (2 * i) = v ∧ nibble p (2 * i) ≤ 9 := by
  rw [nibble_even, nibble_odd, h, bcd_toNat hv]
  omega

theorem exec_rtcWrite (dt : Datetime) (s : State) :
    exec (.rtcWrite dt) s = .next ((s.rtcWrite dt).handOn (.ack s.rtc.wack)) := rfl

/-- Settles O39: byte by byte. -/
theorem rtcWritePacksTheDatetime : Obligations.RtcWritePacksTheDatetime := by
  intro dt s hwf
  obtain ⟨hdate, htime⟩ := (datetime_wf_iff dt).mp hwf
  obtain ⟨-, -, -, hyear, -⟩ := (date_wf_iff _).mp hdate
  obtain ⟨hhour, hminute, hsecond⟩ := (time_wf_iff _).mp htime
  obtain ⟨b0, b1, b2, b3, b4, b5, b6⟩ := payloadByte_packDatetime dt
  obtain ⟨minute, minute1⟩ := nibbles_of_bcd b1 (by omega)
  obtain ⟨hour, hour1⟩ := nibbles_of_bcd b2 (by omega)
  obtain ⟨day, day1⟩ := nibbles_of_bcd b4 (by omega)
  obtain ⟨month, month1⟩ := nibbles_of_bcd b5 (by omega)
  obtain ⟨year, year1⟩ := nibbles_of_bcd b6 (by omega)
  refine ⟨packDatetime dt, exec_rtcWrite dt s, ?second, ?noSecond, minute, minute1, hour, hour1,
    ?weekday, ?weekdayHigh, day, day1, month, month1, year, year1⟩
  case second =>
    intro sec hsec
    have hle := hsecond sec hsec
    simp only [hsec, secondByte] at b0
    obtain ⟨second, second1⟩ := nibbles_of_bcd b0 (by omega)
    exact ⟨second, second1⟩
  case noSecond =>
    intro hnone
    simp only [hnone, secondByte] at b0
    exact ⟨(nibble_even _ 0).trans (by rw [b0]; rfl), (nibble_odd _ 0).trans (by rw [b0]; rfl)⟩
  case weekday =>
    refine (nibble_even _ 3).trans ?_
    rw [b3, weekdayByte_toNat]
    omega
  case weekdayHigh =>
    refine (nibble_odd _ 3).trans ?_
    rw [b3, weekdayByte_toNat]
    omega

end Sys2Proof.Machine

namespace Sys2Proof.Machine

/-! ### The day number and the quarters accessor (R209, R210) -/

theorem daysBeforeMonth_of_getElem? {m cum : Nat} (hm : 1 ≤ m) (h : daysBefore[m - 1]? = some cum) :
    daysBeforeMonth m = cum := by
  cases m with
  | zero => omega
  | succ k =>
    rw [Nat.add_sub_cancel] at h
    rw [daysBeforeMonth, List.getD_eq_getElem?_getD, h, Option.getD_some]

/-- R210's day number of a Date in range, in Int, where the day before the first does not cut off. -/
theorem dayOfDate_eq {d : Date} {cum : Nat} (hwf : d.wf = true)
    (hcum : daysBefore[d.month.toNat - 1]? = some cum) :
    (dayOfDate d : Int) = 365 * d.year.toNat + (d.year.toNat + 3 : Nat) / 4 + cum
      + (if 2 < d.month.toNat ∧ d.year.toNat % 4 = 0 then 1 else 0) + (d.day.toNat - 1) := by
  obtain ⟨hday, hmonth, -⟩ := (date_wf_iff d).mp hwf
  simp only [dayOfDate, dayNumber, daysBeforeMonth_of_getElem? hmonth hcum]
  push_cast [Nat.cast_sub hday]
  rfl

theorem quarters_of_absent {datetime lastSync : Option Datetime}
    (h : datetime = none ∨ lastSync = none) : quarters datetime lastSync = none := by
  rcases h with rfl | rfl
  · cases lastSync <;> rfl
  · cases datetime <;> rfl

/-- The accessor on two Datetimes, by their difference (R209). -/
theorem quarters_of_present (a b : Datetime) :
    quarters (some a) (some b) =
      if minuteDifference a b < -32768 ∨ 32767 < minuteDifference a b then none
      else some (if minuteDifference a b < 0 then 0 else (minuteDifference a b).toNat / 15) := rfl

theorem quarters_of_outside {a b : Datetime}
    (h : minuteDifference a b < -32768 ∨ 32767 < minuteDifference a b) :
    quarters (some a) (some b) = none := by
  rw [quarters_of_present, if_pos h]

theorem quarters_of_negative {a b : Datetime} (hlow : -32768 ≤ minuteDifference a b)
    (hneg : minuteDifference a b < 0) : quarters (some a) (some b) = some 0 := by
  rw [quarters_of_present, if_neg (by omega), if_pos hneg]

theorem quarters_of_nonneg {a b : Datetime} (hnonneg : 0 ≤ minuteDifference a b)
    (hhigh : minuteDifference a b ≤ 32767) :
    quarters (some a) (some b) = some ((minuteDifference a b).toNat / 15) := by
  rw [quarters_of_present, if_neg (by omega), if_neg (by omega)]

theorem quartersWord_toNat_of_quarters {a b : Option Datetime} {q : Nat}
    (h : quarters a b = some q) : (quartersWord (quarters a b)).toNat = 2 ^ 31 + q := by
  have hq := quarters_le h
  rw [h, quartersWord_toNat (by omega)]

/-- Settles O53: the model's difference is the one written out, and its three ranges give the word. -/
theorem quartersSinceLastSync : Obligations.QuartersSinceLastSync := by
  refine fun s => ⟨fun habsent => ?_, ?_⟩
  · exact exec_row_answers_number .quarters (congrArg quartersWord (quarters_of_absent habsent)) rfl
  intro a b cumA cumB ha hb hcumA hcumB hwfA hwfB dayA dayB diff hdayA hdayB hdiff
  have hdateA : (dayOfDate a.date : Int) = dayA :=
    (dayOfDate_eq ((datetime_wf_iff a).mp hwfA).1 hcumA).trans hdayA.symm
  have hdateB : (dayOfDate b.date : Int) = dayB :=
    (dayOfDate_eq ((datetime_wf_iff b).mp hwfB).1 hcumB).trans hdayB.symm
  have hmodel : minuteDifference a b = diff := by
    rw [minuteDifference, hdateA, hdateB, hdiff]
    simp only [Time.minuteOfDay, Nat.cast_add, Nat.cast_mul, Nat.cast_ofNat]
  have hread : s.regRead .quarters = quartersWord (quarters (some a) (some b)) := by
    simp only [State.regRead, ha, hb]
  subst hmodel
  refine ⟨fun houtside => ?_, fun hlow hneg => ?_, fun hnonneg hhigh => ?_⟩
  · rw [quarters_of_outside houtside] at hread
    exact exec_row_answers_number .quarters hread rfl
  · exact exec_row_answers_number .quarters hread
      (quartersWord_toNat_of_quarters (quarters_of_negative hlow hneg))
  · exact exec_row_answers_number .quarters hread
      (quartersWord_toNat_of_quarters (quarters_of_nonneg hnonneg hhigh))

end Sys2Proof.Machine

namespace Sys2Proof.Machine

/-! ### Errors and DERR (R175, R176, R230, R236) -/

/-- The codes of R230. -/
theorem errKind_code_range (k : ErrKind) : 1 ≤ k.code.toNat ∧ k.code.toNat ≤ 16 := by
  cases k <;> decide

/-- An UPDATE whose poll raised an error leaves the Decoder empty and records the error (R176). -/
theorem State.update_of_error {s : State} {e : DecErr}
    (h : (s.dec.poll s.hw.pub).1.outcome = .error e) :
    s.update.dec = DecState.empty ∧ s.update.clk.lasterr = some e := by
  rw [State.update_dec, State.decPoll_dec, State.update_lasterr_eq, State.decPoll_lasterr, h]
  exact ⟨rfl, rfl⟩

theorem State.update_lasterr_of_no_error {s : State}
    (h : (s.dec.poll s.hw.pub).1.outcome.isError = false) :
    s.update.clk.lasterr = s.clk.lasterr := by
  rw [State.update_lasterr_eq, State.decPoll_lasterr]
  cases hend : (s.dec.poll s.hw.pub).1.outcome with
  | nothing => rfl
  | synced _ => rfl
  | error e =>
    rw [hend] at h
    cases h

/-- Settles O31: DERR is the flag of the error this UPDATE's poll ended with. -/
theorem decoderErrorClearsEverything : Obligations.DecoderErrorClearsEverything := by
  refine fun s => ⟨s.update, exec_update s, ?derr, ?noDerr⟩ <;> rw [State.update_derrBit]
  case derr =>
    intro hend
    obtain ⟨e, he⟩ := PollEnd.isError_iff.mp hend
    obtain ⟨hdec, hlasterr⟩ := State.update_of_error he
    exact ⟨hdec, e, he, hlasterr, errKind_code_range e.kind⟩
  case noDerr => exact State.update_lasterr_of_no_error

/-! ### Who writes what (R92 to R94, R240, R242, R244) -/

/-- The writers of each field (R240), for the event `e` taken from `s` to `t`. Every clause has the proof
for a field that stands in `t` as it stood in `s`; a kind of event below gives only the clauses on the
fields that it writes. -/
structure WritesOnlyItsOwn (e : Event) (rest : List Event) (s t : State) : Prop where
  decoder : e ≠ .host 0x01000000#32 → t.dec = s.dec ∧ t.clk.datetime = s.clk.datetime ∧
    t.clk.lastRadioSync = s.clk.lastRadioSync ∧ t.clk.lastBit = s.clk.lastBit ∧
    t.clk.lasterr = s.clk.lasterr := by exact fun _ => ⟨rfl, rfl, rfl, rfl, rfl⟩
  phase : e ≠ .host 0x01000000#32 → e ≠ .host 0x02000000#32 → t.clk.phase = s.clk.phase := by
    exact fun _ _ => rfl
  dawnDuration : (∀ w : Word, e = .host w → opField w ≠ 0x10#8) →
    t.clk.dawnDuration = s.clk.dawnDuration := by exact fun _ => rfl
  weekSunrise : (∀ w : Word, e = .host w → opField w ≠ 0x11#8) →
    t.clk.weekSunrise = s.clk.weekSunrise := by exact fun _ => rfl
  weekendSunrise : (∀ w : Word, e = .host w → opField w ≠ 0x12#8) →
    t.clk.weekendSunrise = s.clk.weekendSunrise := by exact fun _ => rfl
  hwClock : (∀ pin, e ≠ .tick pin) → e ≠ .rstClock →
    t.hw.timer = s.hw.timer ∧ t.hw.vote = s.hw.vote ∧
      ((∀ p, e ≠ .smp p) → t.hw.pub = s.hw.pub) := by exact fun _ _ => ⟨rfl, rfl, fun _ => rfl⟩
  rtcPorts : (∀ a, e ≠ .rtc a) → t.rtc = s.rtc := by exact fun _ => rfl
  outputs : (∀ w, e ≠ .host w) → t.out = s.out := by exact fun _ => rfl
  stage : t.stage = s.stage := by rfl
  inbox : t.inbox = rest := by rfl

theorem refuse_writesOnlyItsOwn (w : Word) (rest : List Event) (s : State) :
    WritesOnlyItsOwn (.host w) rest s (s.took rest).refuse :=
  { outputs := fun hcommand => absurd rfl (hcommand w) }

theorem update_writesOnlyItsOwn (rest : List Event) (s : State) :
    WritesOnlyItsOwn (.host 0x01000000#32) rest s (s.took rest).update := by
  obtain ⟨hdawn, hweek, hweekend, hhw, hrtc, hinbox, hstage⟩ := (s.took rest).update_frame
  exact {
    decoder := fun hupdate => absurd rfl hupdate
    phase := fun hupdate => absurd rfl hupdate
    dawnDuration := fun _ => hdawn
    weekSunrise := fun _ => hweek
    weekendSunrise := fun _ => hweekend
    hwClock := fun _ _ => by rw [hhw]; exact ⟨rfl, rfl, fun _ => rfl⟩
    rtcPorts := fun _ => hrtc
    outputs := fun hcommand => absurd rfl (hcommand _)
    stage := hstage
    inbox := hinbox }

theorem command_writesOnlyItsOwn {i : Instr} {w : Word} {rest : List Event} {s t : State}
    (hd : decode w = .ok i) (h : exec i (s.took rest) = .next t) :
    WritesOnlyItsOwn (.host w) rest s t := by
  have houtputs : (∀ w', Event.host w ≠ .host w') → t.out = s.out :=
    fun hcommand => absurd rfl (hcommand w)
  rcases command_cases hd h with rfl | ⟨data, rfl⟩ | ⟨rfl, rfl⟩ | ⟨rfl, rfl⟩ | ⟨hop, rfl⟩ |
    ⟨hop, -, rfl⟩ | ⟨hop, -, rfl⟩
  · exact refuse_writesOnlyItsOwn w rest s
  · exact { outputs := houtputs }
  · exact update_writesOnlyItsOwn rest s
  · exact { outputs := houtputs, phase := fun _ hack => absurd rfl hack }
  · exact { outputs := houtputs, dawnDuration := fun hother => absurd hop (hother w rfl) }
  · exact { outputs := houtputs, weekSunrise := fun hother => absurd hop (hother w rfl) }
  · exact { outputs := houtputs, weekendSunrise := fun hother => absurd hop (hother w rfl) }

theorem step_writesOnlyItsOwn {s t : State} {e : Event} {rest : List Event}
    (hin : s.inbox = e :: rest) (h : step s = .next t) (hrst : e ≠ .rst) :
    WritesOnlyItsOwn e rest s t := by
  rcases step_cases h with ⟨htaken, -⟩ | ⟨w, rest', i, htaken, hd, hexec⟩ | ⟨w, rest', htaken, rfl⟩ |
    ⟨pin, rest', htaken, rfl⟩ | ⟨rest', htaken, rfl⟩ | ⟨rest', htaken, rfl⟩ |
    ⟨a, rest', htaken, rfl⟩ | ⟨p, rest', htaken, rfl⟩ <;> cases hin.symm.trans htaken
  · exact command_writesOnlyItsOwn hd hexec
  · exact refuse_writesOnlyItsOwn w rest s
  · exact { hwClock := fun htick => absurd rfl (htick pin) }
  · exact absurd rfl hrst
  · exact { hwClock := fun _ hrstClock => absurd rfl hrstClock }
  · exact { rtcPorts := fun hrtc => absurd rfl (hrtc a) }
  · exact { hwClock := fun _ _ => ⟨rfl, rfl, fun hsmp => absurd rfl (hsmp p)⟩ }

/-- Settles O59, event by event: what a step can do shows which fields each event writes. -/
theorem everyFieldHasItsWriters : Obligations.EveryFieldHasItsWriters := by
  intro s t e rest hin h hrst
  have hw := step_writesOnlyItsOwn hin h hrst
  exact ⟨hw.decoder, hw.phase, hw.dawnDuration, hw.weekSunrise, hw.weekendSunrise, hw.hwClock,
    hw.rtcPorts, hw.outputs, hw.stage, hw.inbox⟩

/-! ### Totality (R246) -/

/-- An operation with a choice (a refusal, a raised error) has a next state on each side of it; the others
answer their next state at once. -/
theorem exists_exec_eq_next (i : Instr) (s : State) : ∃ t, exec i s = .next t := by
  cases i with
  | setweek v hour minute =>
    cases hbad : timeOperandBad v hour minute with
    | true => exact ⟨_, exec_setweek_of_bad s hbad⟩
    | false => exact ⟨_, exec_setweek_of_ok s hbad⟩
  | setwknd v hour minute =>
    cases hbad : timeOperandBad v hour minute with
    | true => exact ⟨_, exec_setwknd_of_bad s hbad⟩
    | false => exact ⟨_, exec_setwknd_of_ok s hbad⟩
  | rdreg reg =>
    rw [exec_rdreg_eq_row]
    rcases exec_rdregRow reg s with ⟨r, hr⟩ | hr <;> exact ⟨_, hr⟩
  | bitClassify stamp =>
    cases hspacing : spacingError s.dec.lastPeak stamp with
    | some e => exact ⟨_, exec_bitClassify_of_spacingError hspacing⟩
    | none => exact ⟨_, exec_bitClassify_of_spaced hspacing⟩
  | protoDecode fr =>
    cases hdecoded : protoDecode fr with
    | error e => exact ⟨_, exec_protoDecode_of_error s hdecoded⟩
    | ok dt => exact ⟨_, exec_protoDecode_of_ok s hdecoded⟩
  | _ => exact ⟨_, rfl⟩

/-- Settles O58: the totality of the step, which runs have needed already, and of every operation. -/
theorem nothingIsFatal : Obligations.NothingIsFatal :=
  ⟨exists_step_eq_next, exists_exec_eq_next⟩

/-! ### The reset of the CORE (R260) -/

theorem exec_reset (s : State) : exec .reset s = .next { s with
    dec := DecState.empty, clk := ClockAgg.reset, out := Outputs.idle, stage := .none } := rfl

/-- Settles O55: the values RESET writes are those of R31, and it hands on nothing. -/
theorem resetClearsTheCore : Obligations.ResetClearsTheCore :=
  fun s => ⟨.none, exec_reset s⟩

end Sys2Proof.Machine
